-- ==== Sys2Proof/Word.lean ====
section
/-! DEFINITION. The widths of spec/00_scope.md R10 and R11: bytes and unsigned words. -/

namespace Sys2Proof

/-- A byte: 8 bits, bit 7 most significant (R10). -/
abbrev Byte := BitVec 8

/-- `u32`, and the bit pattern of an `i32` (R11). -/
abbrev Word32 := BitVec 32

/-- `u64`, and the bit pattern of an `i64` (R11). -/
abbrev Word64 := BitVec 64

end Sys2Proof
end

