-- ==== Sys2Proof/Syntax.lean ====
section
/-! DEFINITION. The syntax: the 49 commands of spec/30_encoding.md R97 (one constructor per row of
spec/opcode_table.json), their units and functions (R91, R92), the pseudo-instructions of R102, and the host's
register accesses (R101). -/

namespace Sys2Proof

/-- R65: the bit ordering of a bit-stream unit. `msb` is `M` (bit 7 first), `lsb` is `L` (bit 0 first). -/
inductive BitOrder where
  | msb
  | lsb
deriving DecidableEq, Repr

/-- The commands of R97. No command has a field: operands are in registers (R93). -/
inductive Instr where
  | venc  -- 0x00 VENC, R124
  | vencb  -- 0x01 VENCB, R125
  | vcnt  -- 0x02 VCNT, R126
  | vdec  -- 0x10 VDEC, R127
  | rmOpen  -- 0x20 RM.OPEN, R143
  | rmBit  -- 0x21 RM.BIT, R144
  | rmBits32  -- 0x22 RM.BITS32, R145
  | rmBits64  -- 0x23 RM.BITS64, R146
  | rmGetpos  -- 0x24 RM.GETPOS, R147
  | rmSetpos  -- 0x25 RM.SETPOS, R148
  | rmLen  -- 0x26 RM.LEN, R149
  | rmEos  -- 0x27 RM.EOS, R150
  | rmClose  -- 0x28 RM.CLOSE, R151
  | rlOpen  -- 0x40 RL.OPEN, R152
  | rlBit  -- 0x41 RL.BIT, R153
  | rlBits32  -- 0x42 RL.BITS32, R154
  | rlBits64  -- 0x43 RL.BITS64, R155
  | rlGetpos  -- 0x44 RL.GETPOS, R156
  | rlSetpos  -- 0x45 RL.SETPOS, R157
  | rlLen  -- 0x46 RL.LEN, R158
  | rlEos  -- 0x47 RL.EOS, R159
  | rlClose  -- 0x48 RL.CLOSE, R160
  | wmOpen  -- 0x30 WM.OPEN, R183
  | wmBit  -- 0x31 WM.BIT, R184
  | wmBits32  -- 0x32 WM.BITS32, R185
  | wmBits64  -- 0x33 WM.BITS64, R186
  | wmRep  -- 0x34 WM.REP, R187
  | wmGetpos  -- 0x35 WM.GETPOS, R188
  | wmLen  -- 0x36 WM.LEN, R189
  | wmFlush  -- 0x37 WM.FLUSH, R190
  | wmClose  -- 0x38 WM.CLOSE, R191
  | wlOpen  -- 0x50 WL.OPEN, R192
  | wlBit  -- 0x51 WL.BIT, R193
  | wlBits32  -- 0x52 WL.BITS32, R194
  | wlBits64  -- 0x53 WL.BITS64, R195
  | wlRep  -- 0x54 WL.REP, R196
  | wlGetpos  -- 0x55 WL.GETPOS, R197
  | wlLen  -- 0x56 WL.LEN, R198
  | wlFlush  -- 0x57 WL.FLUSH, R199
  | wlClose  -- 0x58 WL.CLOSE, R200
  | swap16  -- 0x60 SWAP16, R222
  | tobe16  -- 0x61 TOBE16, R223
  | frombe16  -- 0x62 FROMBE16, R224
  | swap32  -- 0x70 SWAP32, R225
  | tobe32  -- 0x71 TOBE32, R226
  | frombe32  -- 0x72 FROMBE32, R227
  | swap64  -- 0x80 SWAP64, R228
  | tobe64  -- 0x81 TOBE64, R229
  | frombe64  -- 0x82 FROMBE64, R230
deriving DecidableEq, Repr

/-- The nine units of R2, in the order of the `unit` field (R91). -/
inductive UnitName where
  | varintEncoder
  | varintDecoder
  | bitstreamReaderMsb
  | bitstreamWriterMsb
  | bitstreamReaderLsb
  | bitstreamWriterLsb
  | endianSwap16
  | endianSwap32
  | endianSwap64
deriving DecidableEq, Repr

/-- R91: the value of the `unit` field that selects a unit. -/
def UnitName.code : UnitName → Nat
  | .varintEncoder => 0
  | .varintDecoder => 1
  | .bitstreamReaderMsb => 2
  | .bitstreamWriterMsb => 3
  | .bitstreamReaderLsb => 4
  | .bitstreamWriterLsb => 5
  | .endianSwap16 => 6
  | .endianSwap32 => 7
  | .endianSwap64 => 8

/-- R92: how many values of `fn` a unit uses, counted from 0. -/
def UnitName.functions : UnitName → Nat
  | .varintEncoder => 3
  | .varintDecoder => 1
  | .bitstreamReaderMsb => 9
  | .bitstreamWriterMsb => 9
  | .bitstreamReaderLsb => 9
  | .bitstreamWriterLsb => 9
  | .endianSwap16 => 3
  | .endianSwap32 => 3
  | .endianSwap64 => 3

/-- R97: the unit that executes a command. -/
def Instr.unit : Instr → UnitName
  | .venc => .varintEncoder
  | .vencb => .varintEncoder
  | .vcnt => .varintEncoder
  | .vdec => .varintDecoder
  | .rmOpen => .bitstreamReaderMsb
  | .rmBit => .bitstreamReaderMsb
  | .rmBits32 => .bitstreamReaderMsb
  | .rmBits64 => .bitstreamReaderMsb
  | .rmGetpos => .bitstreamReaderMsb
  | .rmSetpos => .bitstreamReaderMsb
  | .rmLen => .bitstreamReaderMsb
  | .rmEos => .bitstreamReaderMsb
  | .rmClose => .bitstreamReaderMsb
  | .rlOpen => .bitstreamReaderLsb
  | .rlBit => .bitstreamReaderLsb
  | .rlBits32 => .bitstreamReaderLsb
  | .rlBits64 => .bitstreamReaderLsb
  | .rlGetpos => .bitstreamReaderLsb
  | .rlSetpos => .bitstreamReaderLsb
  | .rlLen => .bitstreamReaderLsb
  | .rlEos => .bitstreamReaderLsb
  | .rlClose => .bitstreamReaderLsb
  | .wmOpen => .bitstreamWriterMsb
  | .wmBit => .bitstreamWriterMsb
  | .wmBits32 => .bitstreamWriterMsb
  | .wmBits64 => .bitstreamWriterMsb
  | .wmRep => .bitstreamWriterMsb
  | .wmGetpos => .bitstreamWriterMsb
  | .wmLen => .bitstreamWriterMsb
  | .wmFlush => .bitstreamWriterMsb
  | .wmClose => .bitstreamWriterMsb
  | .wlOpen => .bitstreamWriterLsb
  | .wlBit => .bitstreamWriterLsb
  | .wlBits32 => .bitstreamWriterLsb
  | .wlBits64 => .bitstreamWriterLsb
  | .wlRep => .bitstreamWriterLsb
  | .wlGetpos => .bitstreamWriterLsb
  | .wlLen => .bitstreamWriterLsb
  | .wlFlush => .bitstreamWriterLsb
  | .wlClose => .bitstreamWriterLsb
  | .swap16 => .endianSwap16
  | .tobe16 => .endianSwap16
  | .frombe16 => .endianSwap16
  | .swap32 => .endianSwap32
  | .tobe32 => .endianSwap32
  | .frombe32 => .endianSwap32
  | .swap64 => .endianSwap64
  | .tobe64 => .endianSwap64
  | .frombe64 => .endianSwap64

/-- R92: the `fn` value of a command. -/
def Instr.fn : Instr → Nat
  | .venc => 0
  | .vencb => 1
  | .vcnt => 2
  | .vdec => 0
  | .rmOpen => 0
  | .rmBit => 1
  | .rmBits32 => 2
  | .rmBits64 => 3
  | .rmGetpos => 4
  | .rmSetpos => 5
  | .rmLen => 6
  | .rmEos => 7
  | .rmClose => 8
  | .rlOpen => 0
  | .rlBit => 1
  | .rlBits32 => 2
  | .rlBits64 => 3
  | .rlGetpos => 4
  | .rlSetpos => 5
  | .rlLen => 6
  | .rlEos => 7
  | .rlClose => 8
  | .wmOpen => 0
  | .wmBit => 1
  | .wmBits32 => 2
  | .wmBits64 => 3
  | .wmRep => 4
  | .wmGetpos => 5
  | .wmLen => 6
  | .wmFlush => 7
  | .wmClose => 8
  | .wlOpen => 0
  | .wlBit => 1
  | .wlBits32 => 2
  | .wlBits64 => 3
  | .wlRep => 4
  | .wlGetpos => 5
  | .wlLen => 6
  | .wlFlush => 7
  | .wlClose => 8
  | .swap16 => 0
  | .tobe16 => 1
  | .frombe16 => 2
  | .swap32 => 0
  | .tobe32 => 1
  | .frombe32 => 2
  | .swap64 => 0
  | .tobe64 => 1
  | .frombe64 => 2

/-- R97: the mnemonic of a command, as spec/opcode_table.json spells it. -/
def Instr.mnemonic : Instr → String
  | .venc => "VENC"
  | .vencb => "VENCB"
  | .vcnt => "VCNT"
  | .vdec => "VDEC"
  | .rmOpen => "RM.OPEN"
  | .rmBit => "RM.BIT"
  | .rmBits32 => "RM.BITS32"
  | .rmBits64 => "RM.BITS64"
  | .rmGetpos => "RM.GETPOS"
  | .rmSetpos => "RM.SETPOS"
  | .rmLen => "RM.LEN"
  | .rmEos => "RM.EOS"
  | .rmClose => "RM.CLOSE"
  | .rlOpen => "RL.OPEN"
  | .rlBit => "RL.BIT"
  | .rlBits32 => "RL.BITS32"
  | .rlBits64 => "RL.BITS64"
  | .rlGetpos => "RL.GETPOS"
  | .rlSetpos => "RL.SETPOS"
  | .rlLen => "RL.LEN"
  | .rlEos => "RL.EOS"
  | .rlClose => "RL.CLOSE"
  | .wmOpen => "WM.OPEN"
  | .wmBit => "WM.BIT"
  | .wmBits32 => "WM.BITS32"
  | .wmBits64 => "WM.BITS64"
  | .wmRep => "WM.REP"
  | .wmGetpos => "WM.GETPOS"
  | .wmLen => "WM.LEN"
  | .wmFlush => "WM.FLUSH"
  | .wmClose => "WM.CLOSE"
  | .wlOpen => "WL.OPEN"
  | .wlBit => "WL.BIT"
  | .wlBits32 => "WL.BITS32"
  | .wlBits64 => "WL.BITS64"
  | .wlRep => "WL.REP"
  | .wlGetpos => "WL.GETPOS"
  | .wlLen => "WL.LEN"
  | .wlFlush => "WL.FLUSH"
  | .wlClose => "WL.CLOSE"
  | .swap16 => "SWAP16"
  | .tobe16 => "TOBE16"
  | .frombe16 => "FROMBE16"
  | .swap32 => "SWAP32"
  | .tobe32 => "TOBE32"
  | .frombe32 => "FROMBE32"
  | .swap64 => "SWAP64"
  | .tobe64 => "TOBE64"
  | .frombe64 => "FROMBE64"

/-- R102: the pseudo-instructions, the signed readings of the varint commands. -/
inductive Pseudo where
  | vencs
  | vencbs
  | vcnts
  | vdecs
deriving DecidableEq, Repr

/-- R102: the command a pseudo-instruction stands for. -/
def Pseudo.expand : Pseudo → Instr
  | .vencs => .venc
  | .vencbs => .vencb
  | .vcnts => .vcnt
  | .vdecs => .vdec

/-- R101, R68: a host access to a register, a (number, value) pair or a number. Writing a command's opcode to
register 0 is how a script line issues it. -/
inductive Transaction where
  | write (no : Nat) (value : Word64)
  | read (no : Nat)
deriving DecidableEq, Repr

end Sys2Proof
end

