-- ==== Sys2Proof/Decode.lean ====
section
/-! DEFINITION. The command byte (spec/30_encoding.md R90 to R98), the register numbers (spec/10_state.md R21),
and the encoder. The decoder reads the two fields of the byte and looks them up in R92's columns; the encoder is
R97's list of opcodes. -/

namespace Sys2Proof

/-- R90: the `unit` field, bits 7:4. -/
def unitField (c : Byte) : Nat := (c.extractLsb' 4 4).toNat

/-- R90: the `fn` field, bits 3:0. -/
def fnField (c : Byte) : Nat := (c.extractLsb' 0 4).toNat

/-- R92: varint encoder column. -/
def decodeUnit0 : Nat → Option Instr
  | 0 => some .venc
  | 1 => some .vencb
  | 2 => some .vcnt
  | _ => none

/-- R92: varint decoder column. -/
def decodeUnit1 : Nat → Option Instr
  | 0 => some .vdec
  | _ => none

/-- R92: reader column, unit 2. -/
def decodeUnit2 : Nat → Option Instr
  | 0 => some .rmOpen
  | 1 => some .rmBit
  | 2 => some .rmBits32
  | 3 => some .rmBits64
  | 4 => some .rmGetpos
  | 5 => some .rmSetpos
  | 6 => some .rmLen
  | 7 => some .rmEos
  | 8 => some .rmClose
  | _ => none

/-- R92: writer column, unit 3. -/
def decodeUnit3 : Nat → Option Instr
  | 0 => some .wmOpen
  | 1 => some .wmBit
  | 2 => some .wmBits32
  | 3 => some .wmBits64
  | 4 => some .wmRep
  | 5 => some .wmGetpos
  | 6 => some .wmLen
  | 7 => some .wmFlush
  | 8 => some .wmClose
  | _ => none

/-- R92: reader column, unit 4. -/
def decodeUnit4 : Nat → Option Instr
  | 0 => some .rlOpen
  | 1 => some .rlBit
  | 2 => some .rlBits32
  | 3 => some .rlBits64
  | 4 => some .rlGetpos
  | 5 => some .rlSetpos
  | 6 => some .rlLen
  | 7 => some .rlEos
  | 8 => some .rlClose
  | _ => none

/-- R92: writer column, unit 5. -/
def decodeUnit5 : Nat → Option Instr
  | 0 => some .wlOpen
  | 1 => some .wlBit
  | 2 => some .wlBits32
  | 3 => some .wlBits64
  | 4 => some .wlRep
  | 5 => some .wlGetpos
  | 6 => some .wlLen
  | 7 => some .wlFlush
  | 8 => some .wlClose
  | _ => none

/-- R92: endian column, unit 6. -/
def decodeUnit6 : Nat → Option Instr
  | 0 => some .swap16
  | 1 => some .tobe16
  | 2 => some .frombe16
  | _ => none

/-- R92: endian column, unit 7. -/
def decodeUnit7 : Nat → Option Instr
  | 0 => some .swap32
  | 1 => some .tobe32
  | 2 => some .frombe32
  | _ => none

/-- R92: endian column, unit 8. -/
def decodeUnit8 : Nat → Option Instr
  | 0 => some .swap64
  | 1 => some .tobe64
  | 2 => some .frombe64
  | _ => none

/-- R91: the column of R92 that the `unit` field selects; units 9 to 15 have none. -/
def decodeFields (unit fn : Nat) : Option Instr :=
  match unit with
  | 0 => decodeUnit0 fn
  | 1 => decodeUnit1 fn
  | 2 => decodeUnit2 fn
  | 3 => decodeUnit3 fn
  | 4 => decodeUnit4 fn
  | 5 => decodeUnit5 fn
  | 6 => decodeUnit6 fn
  | 7 => decodeUnit7 fn
  | 8 => decodeUnit8 fn
  | _ => none

/-- Why a byte is no command. -/
inductive DecodeError where
  /-- R98: the byte is none of the 49 opcodes. -/
  | illegalCommand (c : Byte)
deriving DecidableEq, Repr

/-- R90 to R92, R97, R98: the command a byte written to `CMD` issues. -/
def decode (c : Byte) : Except DecodeError Instr :=
  match decodeFields (unitField c) (fnField c) with
  | some i => .ok i
  | none => .error (.illegalCommand c)

/-- The byte that the host's numbering of an opcode row stands for: its low `nbits` bits, on a command format of
one byte (R90, R100). -/
def tableByte (nbits w : Nat) : Byte := BitVec.ofNat 8 (w % 2 ^ nbits)

/-- The command this decoder reads from an opcode-table word. -/
def decodeTableWord (nbits w : Nat) : Option Instr :=
  match decode (tableByte nbits w) with
  | .ok i => some i
  | .error _ => none

/-- R97: the opcode of a command. -/
def encode : Instr → Byte
  | .venc => 0x00#8
  | .vencb => 0x01#8
  | .vcnt => 0x02#8
  | .vdec => 0x10#8
  | .rmOpen => 0x20#8
  | .rmBit => 0x21#8
  | .rmBits32 => 0x22#8
  | .rmBits64 => 0x23#8
  | .rmGetpos => 0x24#8
  | .rmSetpos => 0x25#8
  | .rmLen => 0x26#8
  | .rmEos => 0x27#8
  | .rmClose => 0x28#8
  | .rlOpen => 0x40#8
  | .rlBit => 0x41#8
  | .rlBits32 => 0x42#8
  | .rlBits64 => 0x43#8
  | .rlGetpos => 0x44#8
  | .rlSetpos => 0x45#8
  | .rlLen => 0x46#8
  | .rlEos => 0x47#8
  | .rlClose => 0x48#8
  | .wmOpen => 0x30#8
  | .wmBit => 0x31#8
  | .wmBits32 => 0x32#8
  | .wmBits64 => 0x33#8
  | .wmRep => 0x34#8
  | .wmGetpos => 0x35#8
  | .wmLen => 0x36#8
  | .wmFlush => 0x37#8
  | .wmClose => 0x38#8
  | .wlOpen => 0x50#8
  | .wlBit => 0x51#8
  | .wlBits32 => 0x52#8
  | .wlBits64 => 0x53#8
  | .wlRep => 0x54#8
  | .wlGetpos => 0x55#8
  | .wlLen => 0x56#8
  | .wlFlush => 0x57#8
  | .wlClose => 0x58#8
  | .swap16 => 0x60#8
  | .tobe16 => 0x61#8
  | .frombe16 => 0x62#8
  | .swap32 => 0x70#8
  | .tobe32 => 0x71#8
  | .frombe32 => 0x72#8
  | .swap64 => 0x80#8
  | .tobe64 => 0x81#8
  | .frombe64 => 0x82#8

/-- The host-visible registers of R21. -/
inductive Reg where
  | cmd
  | status
  | arg0
  | arg1
  | res
  | blen
  | buf (i : Nat)
deriving DecidableEq, Repr

/-- R21: the register a number names, `bufBytes` being the parameter `BUF_BYTES`; the other numbers are not
registers (R63). -/
def regOf (bufBytes no : Nat) : Option Reg :=
  match no with
  | 0 => some .cmd
  | 1 => some .status
  | 2 => some .arg0
  | 3 => some .arg1
  | 4 => some .res
  | 5 => some .blen
  | _ => if 16 ≤ no ∧ no < 16 + bufBytes then some (.buf (no - 16)) else none

/-- R21: the width of a register in bits. -/
def regWidth : Reg → Nat
  | .cmd => 8
  | .status => 8
  | .arg0 => 64
  | .arg1 => 32
  | .res => 64
  | .blen => 8
  | .buf _ => 8

end Sys2Proof
end

