-- ==== Sys2Proof/Config.lean ====
section
/-! DEFINITION. The constants of spec/00_scope.md R8, the parameters of R9 that no state holds, and the values
the spec leaves free, each an opaque constant with no body. -/

namespace Sys2Proof.Config

/-- R8: the longest varint is 10 bytes. -/
def varintMaxBytes : Nat := 10

/-- R8: payload bits of a varint byte. -/
def groupBits : Nat := 7

/-- R9: the least value of the parameter `BUF_BYTES`. -/
def bufBytesMin : Nat := 10

/-- R9: the greatest value of the parameter `BUF_BYTES`. -/
def bufBytesMax : Nat := 255

/-- R9: the default of `BUF_BYTES`. -/
def bufBytesDefault : Nat := 16

/-- R237: the three answers of `HostByteOrder`. -/
inductive HostOrder where
  | littleEndian
  | bigEndian
  | unknown
deriving DecidableEq, Repr, Inhabited

/-- The parameter `HOST_ORDER` (R9, R237): a fact about the host, read by no command (entry 15). -/
opaque hostOrder : HostOrder

/-- The parameter `REG_BASE` (R9, R71): where the platform puts the registers, read by no command (entry 15). -/
opaque regBase : Nat

/-- R258: what `RES` holds after an error, one free value for each draw (entry 3). -/
opaque resAfterError : Nat → Word64

/-- R22: what a host read of `CMD` returns, one free value for each draw (entry 4). -/
opaque cmdRead : Nat → Byte

/-- R37: `ARG0` after a reset of a running block, free for each draw (entry 2). -/
opaque resetArg0 : Nat → Word64

/-- R37: `ARG1` after a reset of a running block, free for each draw (entry 2). -/
opaque resetArg1 : Nat → Word32

/-- R37: `RES` after a reset of a running block, free for each draw (entry 2). -/
opaque resetRes : Nat → Word64

/-- R37: `BUF[i]` after a reset of a running block, free for each draw and index (entry 2). -/
opaque resetBuf : Nat → Nat → Byte

end Sys2Proof.Config
end

