-- ==== Sys2Proof/Machine/State.lean ====
section
/-! DEFINITION. The state of the machine: the block's registers and unit records (spec/10_state.md), the devices
behind its ports (spec/20_memory.md R50 to R61), the host's pending accesses (spec/30_encoding.md R101), the
outcomes' reasons, and the state after reset (R37). -/

namespace Sys2Proof.Machine

/-- The kinds of error of R251. -/
inductive ErrorKind where
  | endOfStream
  | overflowError
  | invalidArgument
  | illegalState
  | outOfRange
  | ioError
  | illegalCommand
  | notSupported
deriving DecidableEq, Repr

/-- R51: the six ports. -/
inductive Port where
  | p0
  | p1
  | p2
  | p3
  | p4
  | p5
deriving DecidableEq, Repr

/-- R53: the answers of `SrcRead`. -/
inductive SrcAnswer where
  | byte (b : Byte)
  | eof
  | ioError
deriving DecidableEq, Repr

/-- R54: the answers of `SnkWrite`. -/
inductive SnkAnswer where
  | ok
  | endOfStream
  | ioError
deriving DecidableEq, Repr

/-- R55, R57: the answers of `GetPos` and `GetLen`. -/
inductive ValueAnswer where
  | value (v : Word64)
  | notSeekable
deriving DecidableEq, Repr

/-- R56: the answers of `SetPos`. -/
inductive SeekAnswer where
  | ok
  | notSeekable
deriving DecidableEq, Repr

/-- R61: the reference device. -/
structure MemStream where
  data : List Byte
  pos : Nat
  seekable : Bool
  cap : Option Nat
  closed : Bool
deriving DecidableEq, Repr

/-- R59: what a free device answers to its next primitive, whichever primitive that is. -/
structure Draw where
  read : SrcAnswer
  write : SnkAnswer
  length : Word64
deriving DecidableEq, Repr

/-- R59: any device. Its position and its `seekable` follow the rules; its answers are the listed ones, in order,
and after the last one it never answers again (R60, entry 7). `held` has the bytes it took, by position (R54);
`closed` records that it was told so (R58). -/
structure OracleDevice where
  answers : List Draw
  pos : Nat
  held : List Host.Cell
  seekable : Bool
  closed : Bool
deriving DecidableEq, Repr

/-- The device behind a port (R17, R50). -/
inductive Device where
  | memStream (m : MemStream)
  | oracle (o : OracleDevice)
deriving DecidableEq, Repr

/-- R9: `SEEKABLE[p]` of the port this device is on. -/
def Device.seekable : Device → Bool
  | .memStream m => m.seekable
  | .oracle o => o.seekable

/-- The devices on the six ports (R51). -/
structure Ports where
  p0 : Device
  p1 : Device
  p2 : Device
  p3 : Device
  p4 : Device
  p5 : Device
deriving DecidableEq, Repr

/-- R30: a cursor, 0 to 8. -/
abbrev Cursor := Fin 9

/-- R30: the record of a bit-stream unit. -/
structure BitUnit where
  att : Bool
  buf : Byte
  cur : Cursor
deriving DecidableEq, Repr

/-- The byte buffer as a list of (address, byte) cells in canonical form (entry 9). -/
abbrev Memory := List Host.Cell

/-- What happens between two states of the block: a host access (R101), the platform's reset (R280), or the
platform wiring a device to a port (R71, R282). -/
inductive Event where
  | host (t : Transaction)
  | reset
  | wire (p : Port) (d : Device)
deriving DecidableEq, Repr

/-- The whole machine. -/
structure State where
  /-- `STATUS` (R23). -/
  status : Byte
  /-- `ARG0` (R25). -/
  arg0 : Word64
  /-- `ARG1` (R26). -/
  arg1 : Word32
  /-- `RES` (R27). -/
  res : Word64
  /-- `BLEN` (R28). -/
  blen : Byte
  /-- `BUF` (R29), read and written through `Memory.read` and `Memory.write`. -/
  buf : Memory
  /-- `RM`: `bitstream_reader_msb` (R30). -/
  rm : BitUnit
  /-- `WM`: `bitstream_writer_msb` (R30). -/
  wm : BitUnit
  /-- `RL`: `bitstream_reader_lsb` (R30). -/
  rl : BitUnit
  /-- `WL`: `bitstream_writer_lsb` (R30). -/
  wl : BitUnit
  /-- The parameter `BUF_BYTES` less its least value 10 (R9, entry 8). No step changes it. -/
  bufExtra : Fin 246
  /-- The environment: the devices (R18, entries 6 and 7). -/
  ports : Ports
  /-- The host's and the platform's pending actions, oldest first (entry 10). -/
  script : List Event
  /-- R24: the index of the next transaction. -/
  txIndex : Nat
  /-- The model's own: what the host's latest read returned (entry 11). -/
  rdata : Word64
  /-- The model's own: the counter the free values are applied to (entry 3). -/
  draws : Nat
deriving DecidableEq, Repr

/-- R9: `BUF_BYTES`, from 10 to 255. -/
def State.bufBytes (s : State) : Nat := Config.bufBytesMin + s.bufExtra.val

/-- Why the machine stops. A closed list. -/
inductive Fault where
  /-- Raised by a port primitive of a command when the device on the port never answers: the command has no final
  state (R60, R296, U8). Safe: nothing is claimed of such a run. -/
  | portSilent (p : Port)
  /-- Raised by `FROMBEn` when its range is inside `BLEN` and reaches outside `BUF`, bytes that do not exist (R62).
  Only in states with `BLEN` above `BUF_BYTES`, which R28 excludes and no run reaches. Safe. -/
  | bufAbsent
deriving DecidableEq, Repr

/-- Why the model gives an action no meaning. A closed list. No command is refused. -/
inductive Refusal where
  /-- Raised by an arm of `exec` whose instruction has no meaning yet. Safe. -/
  | notModelled (mnemonic : String)
  /-- Raised by a host access to a number that is not a register (R63, U7). Safe. -/
  | noSuchRegister (no : Nat)
  /-- Raised by a host write of a value that does not fit the register: R36 and R68 define no wider access
  (entry 13). Safe. -/
  | accessTooWide (no : Nat)
  /-- Raised by a host write of a value above `BUF_BYTES` to `BLEN` (R28, U7). Safe. -/
  | blenTooLarge (value : Word64)
  /-- Raised when the platform wires to a port a device whose `seekable` is not the port's: `SEEKABLE[p]` is the
  same for the life of the model (R59(b), entry 14). Safe. -/
  | seekableChanged (p : Port)
deriving DecidableEq, Repr

/-- R37: a reader record after reset, released and at a byte boundary. -/
def releasedReader : BitUnit := { att := false, buf := 0, cur := 8 }

/-- R37: a writer record after reset, released and at a byte boundary. -/
def releasedWriter : BitUnit := { att := false, buf := 0, cur := 0 }

/-- R61, entry 6: an empty open seekable reference device without a capacity limit, at position 0. -/
def emptyStream : Device :=
  .memStream { data := [], pos := 0, seekable := true, cap := none, closed := false }

/-- The machine right after reset (R37). `ARG0`, `ARG1`, `RES` and `BUF` are unspecified there: the zeros are the
model's choice (entry 1), as are `BUF_BYTES` (the default of R9), the devices and the host's fields (entries 3, 6, 8,
10, 11). -/
def State.reset : State where
  status := 0
  arg0 := 0
  arg1 := 0
  res := 0
  blen := 0
  buf := []
  rm := releasedReader
  wm := releasedWriter
  rl := releasedReader
  wl := releasedWriter
  bufExtra := 6
  ports :=
    { p0 := emptyStream, p1 := emptyStream, p2 := emptyStream
      p3 := emptyStream, p4 := emptyStream, p5 := emptyStream }
  script := []
  txIndex := 0
  rdata := 0
  draws := 0

end Sys2Proof.Machine
end

