-- ==== Sys2Proof/Machine/Flags.lean ====
section
/-! DEFINITION. The block has no condition codes, carry or overflow flags (spec/10_state.md R34): the one status a
command leaves is `STATUS` (R23), whose codes are those of spec/60_exceptions.md R251. -/

namespace Sys2Proof.Machine

/-- R251: the code of an error kind. -/
def errorCode : ErrorKind → Byte
  | .endOfStream => 1
  | .overflowError => 2
  | .invalidArgument => 3
  | .illegalState => 4
  | .outOfRange => 5
  | .ioError => 6
  | .illegalCommand => 7
  | .notSupported => 8

/-- R251: the code of success. -/
def successCode : Byte := 0

end Sys2Proof.Machine
end

