-- ==== Sys2Proof/Machine/Operands.lean ====
section
/-! DEFINITION. The operand forms of spec/30_encoding.md R93 to R96: `ARG0` at the width a command names, `ARG1` as a
signed number, the bits of a byte and of a field, and big-endian bytes (spec/20_memory.md R65 to R67). -/

namespace Sys2Proof.Machine

/-- R93: `ARG0[15:0]`. -/
def arg0Low16 (s : State) : BitVec 16 := s.arg0.extractLsb' 0 16

/-- R93: `ARG0[31:0]`. -/
def arg0Low32 (s : State) : Word32 := s.arg0.extractLsb' 0 32

/-- R93: `ARG0[0]`, the bit operand of the writers' `BIT` and `REP`. -/
def arg0Bit (s : State) : Bool := s.arg0.getLsbD 0

/-- R94, R26: `sval(ARG1)`, the two's-complement value (R11, entry 16). -/
def arg1Signed (s : State) : Int := s.arg1.toInt

/-- R94: a count is legal when it is from 0 to `limit`; the answer is the count. -/
def legalCount (n : Int) (limit : Nat) : Option Nat :=
  if 0 ≤ n ∧ n ≤ limit then some n.toNat else none

/-- R94: the greatest count of the writers' `REP`, the greatest `i32`. -/
def repLimit : Nat := 2 ^ 31 - 1

/-- R96: a narrow result is zero-extended to `RES`. -/
def zext64 {w : Nat} (v : BitVec w) : Word64 := v.setWidth 64

/-- R96: a one-bit result. -/
def bitResult (b : Bool) : Word64 := if b then 1 else 0

/-- R65: the bit number in a byte of the `k`-th bit in stream order. -/
def bitPlace (o : BitOrder) (k : Nat) : Nat :=
  match o with
  | .msb => 7 - k
  | .lsb => k

/-- R141: the `k`-th bit of a byte in stream order. -/
def streamBit (o : BitOrder) (b : Byte) (k : Nat) : Bool := b.getLsbD (bitPlace o k)

/-- R181: a byte with its `k`-th bit in stream order set to `v`. -/
def putStreamBit (o : BitOrder) (b : Byte) (k : Nat) (v : Bool) : Byte :=
  if v then b ||| ((1 : Byte) <<< bitPlace o k) else b &&& ~~~((1 : Byte) <<< bitPlace o k)

/-- R145: `(r << 1) | bit`. -/
def shiftInBit {w : Nat} (r : BitVec w) (b : Bool) : BitVec w :=
  (r <<< 1) ||| (if b then 1#w else 0#w)

/-- R67: the value whose bytes, most significant first, are `bs`. -/
def bigEndianValue (bs : List Byte) : Word64 :=
  bs.foldl (fun acc b => (acc <<< 8) ||| b.setWidth 64) 0

/-- R64, R120: the 7-bit group at the low end of `v`, as a byte with bit 7 clear. -/
def lowGroup (v : Word64) : Byte := v.setWidth 8 &&& 0x7F#8

/-- R120: a byte with its continuation bit set. -/
def withContinuation (g : Byte) : Byte := g ||| 0x80#8

/-- R120: the continuation bit of a varint byte. -/
def continues (b : Byte) : Bool := b.getLsbD 7

end Sys2Proof.Machine
end

