-- ==== Sys2Proof/Machine/Ops.lean ====
section
/-! DEFINITION. The operations every meaning is made of: the byte buffer, the port primitives of
spec/20_memory.md R53 to R58 with the reference device of R61, the way a command runs and ends
(spec/30_encoding.md R103), and ending with an error (spec/60_exceptions.md R257, R258). -/

namespace Sys2Proof.Machine

/-! ### The byte buffer -/

/-- What an address of `BUF` that the list does not hold reads as (entry 9). -/
def unlistedByte : Byte := 0

/-- The byte at an address of `BUF`. -/
def Memory.read : Memory → Nat → Byte
  | [], _ => unlistedByte
  | (k, v) :: rest, a => if k = a then v else Memory.read rest a

/-- `BUF[a] <- b`, keeping the canonical form. -/
def Memory.write : Memory → Nat → Byte → Memory
  | [], a, b => if b = unlistedByte then [] else [(a, b)]
  | (k, v) :: rest, a, b =>
    if a < k then (if b = unlistedByte then (k, v) :: rest else (a, b) :: (k, v) :: rest)
    else if a = k then (if b = unlistedByte then rest else (a, b) :: rest)
    else (k, v) :: Memory.write rest a b

/-- The canonical form: addresses strictly rising, no entry equal to what an unlisted address reads as. -/
abbrev Memory.wf (m : Memory) : Prop :=
  m.Pairwise (fun x y => x.1 < y.1) ∧ ∀ c ∈ m, c.2 ≠ unlistedByte

/-- Bytes stored at rising addresses from `a`. -/
def Memory.store : Memory → Nat → List Byte → Memory
  | m, _, [] => m
  | m, a, b :: bs => Memory.store (Memory.write m a b) (a + 1) bs

/-- `n` bytes read at rising addresses from `a`. -/
def Memory.load (m : Memory) (a : Nat) : Nat → List Byte
  | 0 => []
  | n + 1 => Memory.read m a :: Memory.load m (a + 1) n

/-! ### Devices -/

/-- R61, `SrcRead`. -/
def MemStream.srcRead (m : MemStream) : SrcAnswer × MemStream :=
  if m.closed then (.ioError, m)
  else
    match m.data[m.pos]? with
    | some b => (.byte b, { m with pos := m.pos + 1 })
    | none => (.eof, m)

/-- R61: the write at `pos` would exceed the capacity. -/
def MemStream.full (m : MemStream) : Bool :=
  match m.cap with
  | some k => k ≤ m.pos
  | none => false

/-- R61: the data after byte `b` is written at `pos`, zeros filling a gap. -/
def putByte (data : List Byte) (pos : Nat) (b : Byte) : List Byte :=
  if pos < data.length then data.set pos b
  else data ++ List.replicate (pos - data.length) 0 ++ [b]

/-- R61, `SnkWrite`. -/
def MemStream.snkWrite (m : MemStream) (b : Byte) : SnkAnswer × MemStream :=
  if m.closed then (.ioError, m)
  else if m.full then (.endOfStream, m)
  else (.ok, { m with data := putByte m.data m.pos b, pos := m.pos + 1 })

/-- R54: the byte a free device took at a position, if it took one there. -/
def heldAt : List Host.Cell → Nat → Option Byte
  | [], _ => none
  | (k, v) :: rest, a => if k = a then some v else heldAt rest a

/-- R54: byte `b` held at position `a`, in place of the one held there before; positions stay strictly rising. -/
def hold : List Host.Cell → Nat → Byte → List Host.Cell
  | [], a, b => [(a, b)]
  | (k, v) :: rest, a, b =>
    if a < k then (a, b) :: (k, v) :: rest
    else if a = k then (a, b) :: rest
    else (k, v) :: hold rest a b

/-- R53: `SrcRead` of a device; `none` when it never answers (R60). R53 does not say where a free device stands after
`IOError`: that it has not moved is the model's choice (entry 21). -/
def Device.srcRead : Device → Option (SrcAnswer × Device)
  | .memStream m => some (m.srcRead.1, .memStream m.srcRead.2)
  | .oracle o =>
    match o.answers with
    | [] => none
    | d :: ds =>
      match d.read with
      | .byte b => some (.byte b, .oracle { o with answers := ds, pos := o.pos + 1 })
      | .eof => some (.eof, .oracle { o with answers := ds })
      | .ioError => some (.ioError, .oracle { o with answers := ds })

/-- R54: `SnkWrite` of a device; `none` when it never answers (R60). A free device that answers `Ok` holds the byte at
its former position; after a failure it has not taken the byte, and that it has not moved is the model's choice
(entry 21). -/
def Device.snkWrite (b : Byte) : Device → Option (SnkAnswer × Device)
  | .memStream m => some ((m.snkWrite b).1, .memStream (m.snkWrite b).2)
  | .oracle o =>
    match o.answers with
    | [] => none
    | d :: ds =>
      match d.write with
      | .ok => some (.ok, .oracle { o with answers := ds, pos := o.pos + 1, held := hold o.held o.pos b })
      | .endOfStream => some (.endOfStream, .oracle { o with answers := ds })
      | .ioError => some (.ioError, .oracle { o with answers := ds })

/-- R55, R61: `GetPos` of a device; the position is answered as a `u64` (entry 19). -/
def Device.getPos : Device → Option (ValueAnswer × Device)
  | .memStream m =>
    some (if m.seekable then .value (BitVec.ofNat 64 m.pos) else .notSeekable, .memStream m)
  | .oracle o =>
    match o.answers with
    | [] => none
    | _ :: ds =>
      some (if o.seekable then .value (BitVec.ofNat 64 o.pos) else .notSeekable,
        .oracle { o with answers := ds })

/-- R56, R61: `SetPos` of a device, any `u64` accepted. -/
def Device.setPos (v : Word64) : Device → Option (SeekAnswer × Device)
  | .memStream m =>
    if m.seekable then some (.ok, .memStream { m with pos := v.toNat })
    else some (.notSeekable, .memStream m)
  | .oracle o =>
    match o.answers with
    | [] => none
    | _ :: ds =>
      if o.seekable then some (.ok, .oracle { o with answers := ds, pos := v.toNat })
      else some (.notSeekable, .oracle { o with answers := ds })

/-- R57, R61: `GetLen` of a device; a free device draws its length (R59). -/
def Device.getLen : Device → Option (ValueAnswer × Device)
  | .memStream m =>
    some (if m.seekable then .value (BitVec.ofNat 64 m.data.length) else .notSeekable, .memStream m)
  | .oracle o =>
    match o.answers with
    | [] => none
    | d :: ds =>
      some (if o.seekable then .value d.length else .notSeekable, .oracle { o with answers := ds })

/-- R58, R61: `PortClose` of a device, always answered (entry 20). -/
def Device.close : Device → Device
  | .memStream m => .memStream { m with closed := true }
  | .oracle o => .oracle { o with closed := true }

/-! ### Ports and units -/

/-- R51: the device on a port. -/
def State.port (s : State) : Port → Device
  | .p0 => s.ports.p0
  | .p1 => s.ports.p1
  | .p2 => s.ports.p2
  | .p3 => s.ports.p3
  | .p4 => s.ports.p4
  | .p5 => s.ports.p5

/-- The state with another device on a port. -/
def State.setPort (s : State) (p : Port) (d : Device) : State :=
  match p with
  | .p0 => { s with ports := { s.ports with p0 := d } }
  | .p1 => { s with ports := { s.ports with p1 := d } }
  | .p2 => { s with ports := { s.ports with p2 := d } }
  | .p3 => { s with ports := { s.ports with p3 := d } }
  | .p4 => { s with ports := { s.ports with p4 := d } }
  | .p5 => { s with ports := { s.ports with p5 := d } }

/-- R51: the port of the reader of an ordering. -/
def readPort : BitOrder → Port
  | .msb => .p2
  | .lsb => .p4

/-- R51: the port of the writer of an ordering. -/
def writePort : BitOrder → Port
  | .msb => .p3
  | .lsb => .p5

/-- R30: the record of the reader of an ordering, `RM` or `RL`. -/
def State.reader (s : State) : BitOrder → BitUnit
  | .msb => s.rm
  | .lsb => s.rl

/-- The state with another reader record. -/
def State.setReader (s : State) (o : BitOrder) (u : BitUnit) : State :=
  match o with
  | .msb => { s with rm := u }
  | .lsb => { s with rl := u }

/-- R30: the record of the writer of an ordering, `WM` or `WL`. -/
def State.writer (s : State) : BitOrder → BitUnit
  | .msb => s.wm
  | .lsb => s.wl

/-- The state with another writer record. -/
def State.setWriter (s : State) (o : BitOrder) (u : BitUnit) : State :=
  match o with
  | .msb => { s with wm := u }
  | .lsb => { s with wl := u }

/-! ### How a command runs -/

/-- R14: where a piece of a command's pseudocode stands: it goes on with an answer, it raised an error, or it waits
on a device that never answers. The state is the one the pseudocode has reached. -/
inductive Run (α : Type) where
  | done (a : α) (s : State)
  | raised (e : ErrorKind) (s : State)
  | stuck (f : Fault)
deriving DecidableEq, Repr

/-- R14: the next line of the pseudocode, which runs only if the one before it did not raise. -/
def Run.bind {α β : Type} (r : Run α) (f : α → State → Run β) : Run β :=
  match r with
  | .done a s => f a s
  | .raised e s => .raised e s
  | .stuck x => .stuck x

/-- R103 step 5: a command that did not raise sets `STATUS` to 0, and `RES` if it has a scalar result (R96). -/
def succeed (result : Option Word64) (s : State) : State :=
  match result with
  | some v => { s with status := successCode, res := v }
  | none => { s with status := successCode }

/-- R257, R258: a command that raised `e` keeps the state it had reached, `STATUS` gets the code of `e`, and `RES`
becomes a free value (entry 3). There is no other effect and no return from it (R265). -/
def raiseError (e : ErrorKind) (s : State) : State :=
  { s with status := errorCode e, res := Config.resAfterError s.draws, draws := s.draws + 1 }

/-- R103 steps 5 and 6: the end of a command. -/
def finish : Run (Option Word64) → Host.Outcome State Fault Refusal
  | .done r s => .next (succeed r s)
  | .raised e s => .next (raiseError e s)
  | .stuck f => .fault f

/-- A device's answer taken into the state. -/
def answered {α : Type} (p : Port) (s : State) : Option (α × Device) → Run α
  | some (a, d) => .done a (s.setPort p d)
  | none => .stuck (.portSilent p)

/-- `SrcRead(p)` (R53). -/
def srcRead (p : Port) (s : State) : Run SrcAnswer := answered p s (s.port p).srcRead

/-- `SnkWrite(p, b)` (R54), a failure raised (R14). -/
def snkWrite (p : Port) (b : Byte) (s : State) : Run Unit :=
  (answered p s ((s.port p).snkWrite b)).bind fun a s1 =>
    match a with
    | .ok => .done () s1
    | .endOfStream => .raised .endOfStream s1
    | .ioError => .raised .ioError s1

/-- `GetPos(p)` (R55), `NotSeekable` raised as `NotSupported` (R261). -/
def getPos (p : Port) (s : State) : Run Word64 :=
  (answered p s (s.port p).getPos).bind fun a s1 =>
    match a with
    | .value v => .done v s1
    | .notSeekable => .raised .notSupported s1

/-- `SetPos(p, v)` (R56), `NotSeekable` raised as `NotSupported` (R261). -/
def setPos (p : Port) (v : Word64) (s : State) : Run Unit :=
  (answered p s ((s.port p).setPos v)).bind fun a s1 =>
    match a with
    | .ok => .done () s1
    | .notSeekable => .raised .notSupported s1

/-- `GetLen(p)` (R57), `NotSeekable` raised as `NotSupported` (R261). -/
def getLen (p : Port) (s : State) : Run Word64 :=
  (answered p s (s.port p).getLen).bind fun a s1 =>
    match a with
    | .value v => .done v s1
    | .notSeekable => .raised .notSupported s1

/-- `PortClose(p)` (R58). -/
def portClose (p : Port) (s : State) : State := s.setPort p (s.port p).close

/-- R140, R180: `gate(U)`. A released unit's command raises `IllegalState` and does nothing else (R255). -/
def gate (u : BitUnit) (s : State) : Run Unit :=
  if u.att then .done () s else .raised .illegalState s

/-- R94, R254: the count in `ARG1`, checked against 0 to `limit`. -/
def countOperand (limit : Nat) (s : State) : Run Nat :=
  match legalCount (arg1Signed s) limit with
  | some n => .done n s
  | none => .raised .invalidArgument s

/-! ### The platform's reset -/

/-- R37: `BUF` after a reset of a running block: every byte a free value (entry 2). -/
def freeBuffer (bufBytes draw : Nat) : Memory :=
  Memory.store [] 0 ((List.range bufBytes).map (Config.resetBuf draw))

/-- R37, R280: the reset of a running block. Devices are not touched; pending bits are lost; the unspecified
registers take free values (entry 2). -/
def blockReset (s : State) : State :=
  { s with
    status := 0
    arg0 := Config.resetArg0 s.draws
    arg1 := Config.resetArg1 s.draws
    res := Config.resetRes s.draws
    blen := 0
    buf := freeBuffer s.bufBytes s.draws
    rm := releasedReader
    wm := releasedWriter
    rl := releasedReader
    wl := releasedWriter
    draws := s.draws + 1 }

end Sys2Proof.Machine
end

