-- ==== Sys2Proof/Machine/BitReader.lean ====
section
/-! DEFINITION. The bit-stream readers (spec/41_bitreader.md): the operations `RM` and `RL` share, which differ only
in the place of a bit in a byte (R141), and the 18 commands. -/

namespace Sys2Proof.Machine

/-- R38: a reader record just constructed. -/
def openedReader : BitUnit := { att := true, buf := 0, cur := 8 }

/-- R141: the next bit of the buffered byte, consumed. The cursor is at most 7 here. -/
def takeBit (o : BitOrder) (s : State) : Run Bool :=
  let u := s.reader o
  .done (streamBit o u.buf u.cur.val) (s.setReader o { u with cur := u.cur + 1 })

/-- R141, R150: a byte pulled into the lookahead buffer with `k` of its bits skipped, or the source's answer raised. -/
def refill (o : BitOrder) (k : Cursor) (s : State) : Run Unit :=
  (srcRead (readPort o) s).bind fun a s1 =>
    match a with
    | .eof => .raised .endOfStream s1
    | .ioError => .raised .ioError s1
    | .byte b => .done () (s1.setReader o { s1.reader o with buf := b, cur := k })

/-- R141: `ReadBit(U, p, ord)`. -/
def readBit (o : BitOrder) (s : State) : Run Bool :=
  if (s.reader o).cur = 8 then (refill o 0 s).bind fun _ s1 => takeBit o s1 else takeBit o s

/-- R145: `repeat n times: r = (r << 1) | ReadBit`, most significant bit first. -/
def readBits (o : BitOrder) {w : Nat} : Nat → BitVec w → State → Run (BitVec w)
  | 0, r, s => .done r s
  | n + 1, r, s => (readBit o s).bind fun b s1 => readBits o n (shiftInBit r b) s1

/-- R143, R152: construction. -/
def readerOpen (o : BitOrder) (s : State) : Run (Option Word64) :=
  .done none (s.setReader o openedReader)

/-- R144, R153. -/
def readerBit (o : BitOrder) (s : State) : Run (Option Word64) :=
  (gate (s.reader o) s).bind fun _ s1 =>
    (readBit o s1).bind fun b s2 => .done (some (bitResult b)) s2

/-- R145, R146, R154, R155: a field of up to `w` bits. -/
def readerBits (o : BitOrder) (w : Nat) (s : State) : Run (Option Word64) :=
  (gate (s.reader o) s).bind fun _ s1 =>
    (countOperand w s1).bind fun n s2 =>
      (readBits o n (0 : BitVec w) s2).bind fun r s3 => .done (some (zext64 r)) s3

/-- R142: the bit position of a reader whose device is at byte position `p`. -/
def readerBitPos (u : BitUnit) (p : Word64) : Word64 :=
  8#64 * p + BitVec.ofNat 64 u.cur.val - 8#64

/-- R147, R156. -/
def readerGetpos (o : BitOrder) (s : State) : Run (Option Word64) :=
  (gate (s.reader o) s).bind fun _ s1 =>
    (getPos (readPort o) s1).bind fun p s2 => .done (some (readerBitPos (s2.reader o) p)) s2

/-- R148: `v[2:0]`, the bits of the target byte to skip. -/
def seekSkip (v : Word64) : Cursor := ⟨v.toNat % 8, by omega⟩

/-- R148, R157. -/
def readerSetpos (o : BitOrder) (s : State) : Run (Option Word64) :=
  (gate (s.reader o) s).bind fun _ s1 =>
    (setPos (readPort o) (s1.arg0 >>> 3) s1).bind fun _ s2 =>
      let s3 := s2.setReader o { s2.reader o with cur := 8 }
      if seekSkip s3.arg0 = 0 then .done none s3
      else (refill o (seekSkip s3.arg0) s3).bind fun _ s4 => .done none s4

/-- R149, R158. -/
def readerLen (o : BitOrder) (s : State) : Run (Option Word64) :=
  (gate (s.reader o) s).bind fun _ s1 =>
    (getLen (readPort o) s1).bind fun n s2 => .done (some (8#64 * n)) s2

/-- R150, R159. -/
def readerEos (o : BitOrder) (s : State) : Run (Option Word64) :=
  (gate (s.reader o) s).bind fun _ s1 =>
    if (s1.reader o).cur = 8 then
      (srcRead (readPort o) s1).bind fun a s2 =>
        match a with
        | .eof => .done (some 1) s2
        | .ioError => .raised .ioError s2
        | .byte b => .done (some 0) (s2.setReader o { s2.reader o with buf := b, cur := 0 })
    else .done (some 0) s1

/-- R151, R160: releases and closes the source. -/
def readerClose (o : BitOrder) (s : State) : Run (Option Word64) :=
  (gate (s.reader o) s).bind fun _ s1 =>
    .done none (portClose (readPort o) (s1.setReader o { s1.reader o with att := false }))

/-- R143: `RM.OPEN`. -/
def execRmOpen (s : State) : Host.Outcome State Fault Refusal := finish (readerOpen .msb s)

/-- R144: `RM.BIT`. -/
def execRmBit (s : State) : Host.Outcome State Fault Refusal := finish (readerBit .msb s)

/-- R145: `RM.BITS32`. -/
def execRmBits32 (s : State) : Host.Outcome State Fault Refusal := finish (readerBits .msb 32 s)

/-- R146: `RM.BITS64`. -/
def execRmBits64 (s : State) : Host.Outcome State Fault Refusal := finish (readerBits .msb 64 s)

/-- R147: `RM.GETPOS`. -/
def execRmGetpos (s : State) : Host.Outcome State Fault Refusal := finish (readerGetpos .msb s)

/-- R148: `RM.SETPOS`. -/
def execRmSetpos (s : State) : Host.Outcome State Fault Refusal := finish (readerSetpos .msb s)

/-- R149: `RM.LEN`. -/
def execRmLen (s : State) : Host.Outcome State Fault Refusal := finish (readerLen .msb s)

/-- R150: `RM.EOS`. -/
def execRmEos (s : State) : Host.Outcome State Fault Refusal := finish (readerEos .msb s)

/-- R151: `RM.CLOSE`. -/
def execRmClose (s : State) : Host.Outcome State Fault Refusal := finish (readerClose .msb s)

/-- R152: `RL.OPEN`. -/
def execRlOpen (s : State) : Host.Outcome State Fault Refusal := finish (readerOpen .lsb s)

/-- R153: `RL.BIT`. -/
def execRlBit (s : State) : Host.Outcome State Fault Refusal := finish (readerBit .lsb s)

/-- R154: `RL.BITS32`. -/
def execRlBits32 (s : State) : Host.Outcome State Fault Refusal := finish (readerBits .lsb 32 s)

/-- R155: `RL.BITS64`. -/
def execRlBits64 (s : State) : Host.Outcome State Fault Refusal := finish (readerBits .lsb 64 s)

/-- R156: `RL.GETPOS`. -/
def execRlGetpos (s : State) : Host.Outcome State Fault Refusal := finish (readerGetpos .lsb s)

/-- R157: `RL.SETPOS`. -/
def execRlSetpos (s : State) : Host.Outcome State Fault Refusal := finish (readerSetpos .lsb s)

/-- R158: `RL.LEN`. -/
def execRlLen (s : State) : Host.Outcome State Fault Refusal := finish (readerLen .lsb s)

/-- R159: `RL.EOS`. -/
def execRlEos (s : State) : Host.Outcome State Fault Refusal := finish (readerEos .lsb s)

/-- R160: `RL.CLOSE`. -/
def execRlClose (s : State) : Host.Outcome State Fault Refusal := finish (readerClose .lsb s)

end Sys2Proof.Machine
end

