-- ==== Sys2Proof/Machine/BitWriter.lean ====
section
/-! DEFINITION. The bit-stream writers (spec/42_bitwriter.md): the operations `WM` and `WL` share, which differ only
in the place of a bit in a byte (R181), and the 18 commands. -/

namespace Sys2Proof.Machine

/-- R38: a writer record just constructed. -/
def openedWriter : BitUnit := { att := true, buf := 0, cur := 0 }

/-- R181, R182: the buffered byte emitted. A failure leaves the record as it is; success empties it. -/
def emit (o : BitOrder) (s : State) : Run Unit :=
  (snkWrite (writePort o) (s.writer o).buf s).bind fun _ s1 =>
    .done () (s1.setWriter o { s1.writer o with buf := 0, cur := 0 })

/-- R181: the bit put at the cursor, and the byte emitted if it is full. The cursor is at most 7 here. -/
def placeBit (o : BitOrder) (v : Bool) (s : State) : Run Unit :=
  let u := s.writer o
  let s1 := s.setWriter o { u with buf := putStreamBit o u.buf u.cur.val v, cur := u.cur + 1 }
  if (s1.writer o).cur = 8 then emit o s1 else .done () s1

/-- R181: `WriteBit(U, p, ord, v)`. At `cur` = 8, which only a failed emission leaves (R201), the emission is retried
first, and the sink's error raised if it fails again: the effect that U6 of spec/93 allows (entry 5). -/
def writeBit (o : BitOrder) (v : Bool) (s : State) : Run Unit :=
  if (s.writer o).cur = 8 then (emit o s).bind fun _ s1 => placeBit o v s1 else placeBit o v s

/-- R185: `for i = n-1 down to 0: WriteBit(field[i])`. -/
def writeField (o : BitOrder) (field : Word64) : Nat → State → Run Unit
  | 0, s => .done () s
  | i + 1, s => (writeBit o (field.getLsbD i) s).bind fun _ s1 => writeField o field i s1

/-- R187: `repeat n times: WriteBit(v)`. -/
def writeRepeat (o : BitOrder) (v : Bool) : Nat → State → Run Unit
  | 0, s => .done () s
  | n + 1, s => (writeBit o v s).bind fun _ s1 => writeRepeat o v n s1

/-- R182: `FlushBits(U, p)`. -/
def flushBits (o : BitOrder) (s : State) : Run Unit :=
  if (s.writer o).cur = 0 then .done () s else emit o s

/-- R183, R192: construction. -/
def writerOpen (o : BitOrder) (s : State) : Run (Option Word64) :=
  .done none (s.setWriter o openedWriter)

/-- R184, R193. -/
def writerBit (o : BitOrder) (s : State) : Run (Option Word64) :=
  (gate (s.writer o) s).bind fun _ s1 =>
    (writeBit o (arg0Bit s1) s1).bind fun _ s2 => .done none s2

/-- R185, R194: the 32-bit overload, counts 0 to 31. -/
def writerBits32 (o : BitOrder) (s : State) : Run (Option Word64) :=
  (gate (s.writer o) s).bind fun _ s1 =>
    (countOperand 31 s1).bind fun n s2 =>
      (writeField o (zext64 (arg0Low32 s2)) n s2).bind fun _ s3 => .done none s3

/-- R186, R195: the 64-bit overload, counts 0 to 63. -/
def writerBits64 (o : BitOrder) (s : State) : Run (Option Word64) :=
  (gate (s.writer o) s).bind fun _ s1 =>
    (countOperand 63 s1).bind fun n s2 =>
      (writeField o s2.arg0 n s2).bind fun _ s3 => .done none s3

/-- R187, R196. -/
def writerRep (o : BitOrder) (s : State) : Run (Option Word64) :=
  (gate (s.writer o) s).bind fun _ s1 =>
    (countOperand repLimit s1).bind fun n s2 =>
      (writeRepeat o (arg0Bit s2) n s2).bind fun _ s3 => .done none s3

/-- R188, R189: a byte count in bits plus the bits pending in the record. -/
def writerBitPos (u : BitUnit) (n : Word64) : Word64 := 8#64 * n + BitVec.ofNat 64 u.cur.val

/-- R188, R197. -/
def writerGetpos (o : BitOrder) (s : State) : Run (Option Word64) :=
  (gate (s.writer o) s).bind fun _ s1 =>
    (getPos (writePort o) s1).bind fun p s2 => .done (some (writerBitPos (s2.writer o) p)) s2

/-- R189, R198. -/
def writerLen (o : BitOrder) (s : State) : Run (Option Word64) :=
  (gate (s.writer o) s).bind fun _ s1 =>
    (getLen (writePort o) s1).bind fun n s2 => .done (some (writerBitPos (s2.writer o) n)) s2

/-- R190: the pending byte emitted and the sink released. -/
def release (o : BitOrder) (s : State) : Run Unit :=
  (flushBits o s).bind fun _ s1 => .done () (s1.setWriter o { s1.writer o with att := false })

/-- R190, R199. -/
def writerFlush (o : BitOrder) (s : State) : Run (Option Word64) :=
  (gate (s.writer o) s).bind fun _ s1 => (release o s1).bind fun _ s2 => .done none s2

/-- R191, R200. -/
def writerClose (o : BitOrder) (s : State) : Run (Option Word64) :=
  (gate (s.writer o) s).bind fun _ s1 =>
    (release o s1).bind fun _ s2 => .done none (portClose (writePort o) s2)

/-- R183: `WM.OPEN`. -/
def execWmOpen (s : State) : Host.Outcome State Fault Refusal := finish (writerOpen .msb s)

/-- R184: `WM.BIT`. -/
def execWmBit (s : State) : Host.Outcome State Fault Refusal := finish (writerBit .msb s)

/-- R185: `WM.BITS32`. -/
def execWmBits32 (s : State) : Host.Outcome State Fault Refusal := finish (writerBits32 .msb s)

/-- R186: `WM.BITS64`. -/
def execWmBits64 (s : State) : Host.Outcome State Fault Refusal := finish (writerBits64 .msb s)

/-- R187: `WM.REP`. -/
def execWmRep (s : State) : Host.Outcome State Fault Refusal := finish (writerRep .msb s)

/-- R188: `WM.GETPOS`. -/
def execWmGetpos (s : State) : Host.Outcome State Fault Refusal := finish (writerGetpos .msb s)

/-- R189: `WM.LEN`. -/
def execWmLen (s : State) : Host.Outcome State Fault Refusal := finish (writerLen .msb s)

/-- R190: `WM.FLUSH`. -/
def execWmFlush (s : State) : Host.Outcome State Fault Refusal := finish (writerFlush .msb s)

/-- R191: `WM.CLOSE`. -/
def execWmClose (s : State) : Host.Outcome State Fault Refusal := finish (writerClose .msb s)

/-- R192: `WL.OPEN`. -/
def execWlOpen (s : State) : Host.Outcome State Fault Refusal := finish (writerOpen .lsb s)

/-- R193: `WL.BIT`. -/
def execWlBit (s : State) : Host.Outcome State Fault Refusal := finish (writerBit .lsb s)

/-- R194: `WL.BITS32`. -/
def execWlBits32 (s : State) : Host.Outcome State Fault Refusal := finish (writerBits32 .lsb s)

/-- R195: `WL.BITS64`. -/
def execWlBits64 (s : State) : Host.Outcome State Fault Refusal := finish (writerBits64 .lsb s)

/-- R196: `WL.REP`. -/
def execWlRep (s : State) : Host.Outcome State Fault Refusal := finish (writerRep .lsb s)

/-- R197: `WL.GETPOS`. -/
def execWlGetpos (s : State) : Host.Outcome State Fault Refusal := finish (writerGetpos .lsb s)

/-- R198: `WL.LEN`. -/
def execWlLen (s : State) : Host.Outcome State Fault Refusal := finish (writerLen .lsb s)

/-- R199: `WL.FLUSH`. -/
def execWlFlush (s : State) : Host.Outcome State Fault Refusal := finish (writerFlush .lsb s)

/-- R200: `WL.CLOSE`. -/
def execWlClose (s : State) : Host.Outcome State Fault Refusal := finish (writerClose .lsb s)

end Sys2Proof.Machine
end

