-- ==== Sys2Proof/Machine/Endian.lean ====
section
/-! DEFINITION. The endian units (spec/43_endian.md): SWAPn, TOBEn, FROMBEn for n = 16, 32, 64, and the two reference
functions without a command (R236, R237). -/

namespace Sys2Proof.Machine

/-- R10: byte `j` of a value, bits 8j+7 down to 8j. -/
def byteOf {w : Nat} (v : BitVec w) (j : Nat) : Byte := v.extractLsb' (8 * j) 8

/-- R67: the `m` low bytes of a value, most significant first. -/
def bigEndianBytes {w : Nat} (v : BitVec w) : Nat → List Byte
  | 0 => []
  | m + 1 => byteOf v m :: bigEndianBytes v m

/-- R222: `v[7:0] :: v[15:8]`. -/
def swapBytes16 (v : BitVec 16) : BitVec 16 := byteOf v 0 ++ byteOf v 1

/-- R225: `v[7:0] :: v[15:8] :: v[23:16] :: v[31:24]`. -/
def swapBytes32 (v : Word32) : Word32 := byteOf v 0 ++ byteOf v 1 ++ byteOf v 2 ++ byteOf v 3

/-- R228: the eight bytes in reverse order. -/
def swapBytes64 (v : Word64) : Word64 :=
  byteOf v 0 ++ byteOf v 1 ++ byteOf v 2 ++ byteOf v 3 ++ byteOf v 4 ++ byteOf v 5 ++ byteOf v 6 ++ byteOf v 7

/-- R223, R226, R229: the bytes of a value to `BUF` from index 0, `BLEN` their number. -/
def toBuffer (bs : List Byte) (s : State) : Run (Option Word64) :=
  .done none { s with buf := s.buf.store 0 bs, blen := BitVec.ofNat 8 bs.length }

/-- R224, R227, R230: `m` bytes from `BUF` at offset `sval(ARG1)`, big-endian. The range check comes first; bytes
outside `BUF` do not exist (entry 12). -/
def fromBuffer (m : Nat) (s : State) : Run (Option Word64) :=
  if arg1Signed s < 0 ∨ arg1Signed s + m > s.blen.toNat then .raised .outOfRange s
  else if arg1Signed s + m > s.bufBytes then .stuck .bufAbsent
  else .done (some (bigEndianValue (s.buf.load (arg1Signed s).toNat m))) s

/-- R222: `SWAP16`. -/
def execSwap16 (s : State) : Host.Outcome State Fault Refusal :=
  finish (.done (some (zext64 (swapBytes16 (arg0Low16 s)))) s)

/-- R223: `TOBE16`. -/
def execTobe16 (s : State) : Host.Outcome State Fault Refusal :=
  finish (toBuffer (bigEndianBytes (arg0Low16 s) 2) s)

/-- R224: `FROMBE16`. -/
def execFrombe16 (s : State) : Host.Outcome State Fault Refusal := finish (fromBuffer 2 s)

/-- R225: `SWAP32`. -/
def execSwap32 (s : State) : Host.Outcome State Fault Refusal :=
  finish (.done (some (zext64 (swapBytes32 (arg0Low32 s)))) s)

/-- R226: `TOBE32`. -/
def execTobe32 (s : State) : Host.Outcome State Fault Refusal :=
  finish (toBuffer (bigEndianBytes (arg0Low32 s) 4) s)

/-- R227: `FROMBE32`. -/
def execFrombe32 (s : State) : Host.Outcome State Fault Refusal := finish (fromBuffer 4 s)

/-- R228: `SWAP64`. -/
def execSwap64 (s : State) : Host.Outcome State Fault Refusal :=
  finish (.done (some (swapBytes64 s.arg0)) s)

/-- R229: `TOBE64`. -/
def execTobe64 (s : State) : Host.Outcome State Fault Refusal :=
  finish (toBuffer (bigEndianBytes s.arg0 8) s)

/-- R230: `FROMBE64`. -/
def execFrombe64 (s : State) : Host.Outcome State Fault Refusal := finish (fromBuffer 8 s)

/-! ### Reference functions without a command -/

/-- R236: the groups of a sequence of `q * g` bytes, each reversed. -/
def swapGroupsLoop (g : Nat) : Nat → List Byte → List Byte
  | 0, _ => []
  | q + 1, bs => (bs.take g).reverse ++ swapGroupsLoop g q (bs.drop g)

/-- R236: `SwapGroups(bytes, g)`; `none` where the rule gives no meaning (U9). -/
def swapGroups (bs : List Byte) (g : Nat) : Option (List Byte) :=
  if 2 ≤ g ∧ bs.length % g = 0 then some (swapGroupsLoop g (bs.length / g) bs) else none

/-- R237: `HostByteOrder()` of a host that stored the bytes `c` at increasing addresses and loaded `x` (U10). -/
def hostByteOrder (c : List Byte) (x : Word64) : Config.HostOrder :=
  if x = bigEndianValue c.reverse then .littleEndian
  else if x = bigEndianValue c then .bigEndian
  else .unknown

end Sys2Proof.Machine
end

