-- ==== Sys2Proof/Machine/Varint.lean ====
section
/-! DEFINITION. The varint units (spec/40_varint.md): VENC, VENCB, VCNT, VDEC. -/

namespace Sys2Proof.Machine

/-- R121: the loop of `VarintBytes`, at most `fuel` bytes. A 64-bit value needs at most ten (R122). -/
def varintLoop : Nat → Word64 → List Byte
  | 0, _ => []
  | fuel + 1, v =>
    let g := lowGroup v
    let rest := v >>> Config.groupBits
    if rest = 0 then [g] else withContinuation g :: varintLoop fuel rest

/-- R121: `VarintBytes(v)`. -/
def varintBytes (v : Word64) : List Byte := varintLoop Config.varintMaxBytes v

/-- R122: `VarintLen(v)`, the length of `VarintBytes(v)`. -/
def varintLen (v : Word64) : Nat := (varintBytes v).length

/-- R124: the bytes written to a port one at a time, first byte first; a failure ends the command. -/
def writeBytes (p : Port) : List Byte → State → Run Unit
  | [], s => .done () s
  | b :: bs, s => (snkWrite p b s).bind fun _ s1 => writeBytes p bs s1

/-- R124: `VENC`. -/
def execVenc (s : State) : Host.Outcome State Fault Refusal :=
  finish ((writeBytes .p0 (varintBytes s.arg0) s).bind fun _ s1 =>
    .done (some (BitVec.ofNat 64 (varintLen s.arg0))) s1)

/-- R125: `VENCB`. -/
def execVencb (s : State) : Host.Outcome State Fault Refusal :=
  let out := varintBytes s.arg0
  finish (.done (some (BitVec.ofNat 64 out.length))
    { s with buf := s.buf.store 0 out, blen := BitVec.ofNat 8 out.length })

/-- R126: `VCNT`. -/
def execVcnt (s : State) : Host.Outcome State Fault Refusal :=
  finish (.done (some (BitVec.ofNat 64 (varintLen s.arg0))) s)

/-- R127: the loop of `VDEC` with `fuel` bytes left of the ten it may pull, `k` bytes pulled and `acc` accumulated.
When the tenth byte asks for another one the error comes before any further pull. -/
def decodeLoop : Nat → Nat → Word64 → State → Run Word64
  | 0, _, _, s => .raised .overflowError s
  | fuel + 1, k, acc, s =>
    (srcRead .p1 s).bind fun a s1 =>
      match a with
      | .eof => .raised .endOfStream s1
      | .ioError => .raised .ioError s1
      | .byte b =>
        let acc' := acc ||| ((lowGroup (b.setWidth 64)).setWidth 64 <<< (Config.groupBits * k))
        if continues b then decodeLoop fuel (k + 1) acc' s1 else .done acc' s1

/-- R127: `VDEC`. -/
def execVdec (s : State) : Host.Outcome State Fault Refusal :=
  finish ((decodeLoop Config.varintMaxBytes 0 0 s).bind fun v s1 => .done (some v) s1)

end Sys2Proof.Machine
end

