-- ==== Sys2Proof/Machine/Dispatch.lean ====
section
/-! DEFINITION. One arm per command: the operation each opcode of spec/30_encoding.md R97 runs. -/

namespace Sys2Proof.Machine

def exec (i : Instr) (s : State) : Host.Outcome State Fault Refusal :=
  match i with
  | .venc => Sys2Proof.Machine.execVenc s
  | .vencb => Sys2Proof.Machine.execVencb s
  | .vcnt => Sys2Proof.Machine.execVcnt s
  | .vdec => Sys2Proof.Machine.execVdec s
  | .rmOpen => Sys2Proof.Machine.execRmOpen s
  | .rmBit => Sys2Proof.Machine.execRmBit s
  | .rmBits32 => Sys2Proof.Machine.execRmBits32 s
  | .rmBits64 => Sys2Proof.Machine.execRmBits64 s
  | .rmGetpos => Sys2Proof.Machine.execRmGetpos s
  | .rmSetpos => Sys2Proof.Machine.execRmSetpos s
  | .rmLen => Sys2Proof.Machine.execRmLen s
  | .rmEos => Sys2Proof.Machine.execRmEos s
  | .rmClose => Sys2Proof.Machine.execRmClose s
  | .rlOpen => Sys2Proof.Machine.execRlOpen s
  | .rlBit => Sys2Proof.Machine.execRlBit s
  | .rlBits32 => Sys2Proof.Machine.execRlBits32 s
  | .rlBits64 => Sys2Proof.Machine.execRlBits64 s
  | .rlGetpos => Sys2Proof.Machine.execRlGetpos s
  | .rlSetpos => Sys2Proof.Machine.execRlSetpos s
  | .rlLen => Sys2Proof.Machine.execRlLen s
  | .rlEos => Sys2Proof.Machine.execRlEos s
  | .rlClose => Sys2Proof.Machine.execRlClose s
  | .wmOpen => Sys2Proof.Machine.execWmOpen s
  | .wmBit => Sys2Proof.Machine.execWmBit s
  | .wmBits32 => Sys2Proof.Machine.execWmBits32 s
  | .wmBits64 => Sys2Proof.Machine.execWmBits64 s
  | .wmRep => Sys2Proof.Machine.execWmRep s
  | .wmGetpos => Sys2Proof.Machine.execWmGetpos s
  | .wmLen => Sys2Proof.Machine.execWmLen s
  | .wmFlush => Sys2Proof.Machine.execWmFlush s
  | .wmClose => Sys2Proof.Machine.execWmClose s
  | .wlOpen => Sys2Proof.Machine.execWlOpen s
  | .wlBit => Sys2Proof.Machine.execWlBit s
  | .wlBits32 => Sys2Proof.Machine.execWlBits32 s
  | .wlBits64 => Sys2Proof.Machine.execWlBits64 s
  | .wlRep => Sys2Proof.Machine.execWlRep s
  | .wlGetpos => Sys2Proof.Machine.execWlGetpos s
  | .wlLen => Sys2Proof.Machine.execWlLen s
  | .wlFlush => Sys2Proof.Machine.execWlFlush s
  | .wlClose => Sys2Proof.Machine.execWlClose s
  | .swap16 => Sys2Proof.Machine.execSwap16 s
  | .tobe16 => Sys2Proof.Machine.execTobe16 s
  | .frombe16 => Sys2Proof.Machine.execFrombe16 s
  | .swap32 => Sys2Proof.Machine.execSwap32 s
  | .tobe32 => Sys2Proof.Machine.execTobe32 s
  | .frombe32 => Sys2Proof.Machine.execFrombe32 s
  | .swap64 => Sys2Proof.Machine.execSwap64 s
  | .tobe64 => Sys2Proof.Machine.execTobe64 s
  | .frombe64 => Sys2Proof.Machine.execFrombe64 s

end Sys2Proof.Machine
end

