-- ==== Sys2Proof/Machine/HostPort.lean ====
section
/-! DEFINITION. The host's side of the block: register accesses by number (spec/10_state.md R21 to R29, R36), the
life of a command byte (spec/30_encoding.md R103), and the platform's events (spec/70_reset_and_hazards.md R280,
R282). -/

namespace Sys2Proof.Machine

/-- R103 steps 1 and 2: a byte written to `CMD` issues the command it encodes; any other byte completes with
`IllegalCommand` and touches nothing else (R98, R260). -/
def issue (c : Byte) (s : State) : Host.Outcome State Fault Refusal :=
  match decode c with
  | .ok i => exec i s
  | .error _ => .next (raiseError .illegalCommand s)

/-- R21, R36: a host write of a value that fits the register. Writes to `STATUS` and `RES` are ignored (R23, R27);
`BLEN` takes values up to `BUF_BYTES` (R28). -/
def writeReg (r : Reg) (v : Word64) (s : State) : Host.Outcome State Fault Refusal :=
  match r with
  | .cmd => issue (v.setWidth 8) s
  | .status => .next s
  | .arg0 => .next { s with arg0 := v }
  | .arg1 => .next { s with arg1 := v.setWidth 32 }
  | .res => .next s
  | .blen => if v.toNat ≤ s.bufBytes then .next { s with blen := v.setWidth 8 } else .refused (.blenTooLarge v)
  | .buf i => .next { s with buf := s.buf.write i (v.setWidth 8) }

/-- R21, R36: a host write by register number, whole registers only (R68, entry 13). -/
def hostWrite (no : Nat) (v : Word64) (s : State) : Host.Outcome State Fault Refusal :=
  match regOf s.bufBytes no with
  | none => .refused (.noSuchRegister no)
  | some r => if v.toNat < 2 ^ regWidth r then writeReg r v s else .refused (.accessTooWide no)

/-- R21, R22: the value a host read returns goes to `rdata` (entry 11). `CMD` reads as a free value (entry 4). -/
def readReg (r : Reg) (s : State) : State :=
  match r with
  | .cmd => { s with rdata := zext64 (Config.cmdRead s.draws), draws := s.draws + 1 }
  | .status => { s with rdata := zext64 s.status }
  | .arg0 => { s with rdata := s.arg0 }
  | .arg1 => { s with rdata := zext64 s.arg1 }
  | .res => { s with rdata := s.res }
  | .blen => { s with rdata := zext64 s.blen }
  | .buf i => { s with rdata := zext64 (s.buf.read i) }

/-- R101: a host read by register number. -/
def hostRead (no : Nat) (s : State) : Host.Outcome State Fault Refusal :=
  match regOf s.bufBytes no with
  | none => .refused (.noSuchRegister no)
  | some r => .next (readReg r s)

/-- R282, R71: the platform wires a device to a port. `SEEKABLE[p]` stays (R59(b), entry 14). -/
def wire (p : Port) (d : Device) (s : State) : Host.Outcome State Fault Refusal :=
  if d.seekable = (s.port p).seekable then .next (s.setPort p d) else .refused (.seekableChanged p)

/-- R24: the next event taken off the list, the index advanced by one. -/
def takeEvent (rest : List Event) (s : State) : State :=
  { s with script := rest, txIndex := s.txIndex + 1 }

/-- What one event does to the machine. -/
def runEvent (e : Event) (s : State) : Host.Outcome State Fault Refusal :=
  match e with
  | .host (.write no v) => hostWrite no v s
  | .host (.read no) => hostRead no s
  | .reset => .next (blockReset s)
  | .wire p d => wire p d s

/-- The host's write that issues the command of an opcode-table word: that byte to register 0 (R22). -/
def commandEvent (nbits w : Nat) : Event := .host (.write 0 (zext64 (tableByte nbits w)))

/-- R17: with no event pending the host is idle, and the block, which never acts on its own, stays as it is
(entry 10). -/
def idle (s : State) : State := s

end Sys2Proof.Machine
end

