-- ==== Sys2Proof/Machine/Step.lean ====
section
/-! DEFINITION. One step: the next access of the host, served whole (spec/20_memory.md R72, spec/30_encoding.md
R103). There is no fetch from memory and no program counter (spec/10_state.md R24): the next command is the next byte
the host writes to `CMD`. -/

namespace Sys2Proof.Machine

/-- One host access or platform event, to its completion. -/
def step (s : State) : Host.Outcome State Fault Refusal :=
  match s.script with
  | [] => .next (idle s)
  | e :: rest => runEvent e (takeEvent rest s)

/-- The state in which the host's next access writes the command byte of that opcode-table word to `CMD`
(entry 10). -/
def State.withFetchWord (s : State) (nbits w : Nat) : State :=
  { s with script := commandEvent nbits w :: s.script }

end Sys2Proof.Machine
end

