-- ==== Sys2Proof/WellFormed.lean ====
section
/-! DEFINITION. What the spec calls a command it lists (spec/30_encoding.md R91, R92) and a host access it
defines (spec/10_state.md R21, R28, R36; spec/20_memory.md R63, R68). -/

namespace Sys2Proof

/-- R92: a (unit, fn) pair that stands in the table, that is, not in a blank cell. -/
def fieldsWellFormed (u : UnitName) (fn : Nat) : Bool := fn < u.functions

/-- R91, R92: a command's fields stand in the table. -/
def Instr.wellFormed (i : Instr) : Bool := fieldsWellFormed i.unit i.fn

/-- R21: the numbers that are registers, `bufBytes` being `BUF_BYTES`. -/
def isRegister (bufBytes no : Nat) : Bool :=
  no ≤ 5 || (16 ≤ no && no < 16 + bufBytes)

/-- R36, R68: the value fills the register and no more. Registers 2 and 4 are 64 bits wide, register 3 is 32,
every other one is 8 (R21). -/
def fitsRegister (no : Nat) (value : Word64) : Bool :=
  if no = 2 ∨ no = 4 then true
  else if no = 3 then value.toNat < 2 ^ 32
  else value.toNat < 2 ^ 8

/-- R28, R36, R63: a host access the spec gives a meaning. -/
def Transaction.wellFormed (bufBytes : Nat) : Transaction → Bool
  | .read no => isRegister bufBytes no
  | .write no v =>
    isRegister bufBytes no && fitsRegister no v && (no != 5 || v.toNat ≤ bufBytes)

end Sys2Proof
end

