-- ==== Sys2Proof/Safety.lean ====
section
/-! DEFINITION. What counts as a safe state and a safe run, and the words the claims use: the spec's rules restated over
lists of bits and bytes, independently of the meanings. -/

namespace Sys2Proof.Machine

/-! ### The invariant -/

/-- R32: the places of a writer's byte from its cursor on hold zero; a released writer has no pending bits. -/
abbrev WriterOk (o : BitOrder) (u : BitUnit) : Prop :=
  (∀ k, k < 8 → u.cur.val ≤ k → streamBit o u.buf k = false) ∧ (u.att = false → u.cur = 0)

/-- The byte buffer is canonical, lies inside `BUF`, and `BLEN` is legal (R28, R29, R62). -/
abbrev BufferOk (s : State) : Prop :=
  Memory.wf s.buf ∧ (∀ c ∈ s.buf, c.1 < s.bufBytes) ∧ s.blen.toNat ≤ s.bufBytes

/-- The invariant of the machine: `STATUS` holds a code of R251, the byte buffer is as R28 and R62 say, and both
writers are as R32 says. -/
abbrev State.Inv (s : State) : Prop :=
  s.status.toNat ≤ 8 ∧ BufferOk s ∧ WriterOk .msb s.wm ∧ WriterOk .lsb s.wl

/-- R31: while a reader holds a byte with unread bits, its device stands one byte past that byte. -/
abbrev LookaheadOk (u : BitUnit) (d : Device) : Prop :=
  u.att = true → u.cur.val < 8 →
    match d with
    | .memStream m => 0 < m.pos ∧ m.data[m.pos - 1]? = some u.buf
    | .oracle o => 0 < o.pos

/-- A run is safe when it goes on: no device hangs it and nothing is left without a meaning. -/
def isNext : Host.Outcome State Fault Refusal → Bool
  | .next _ => true
  | .fault _ => false
  | .refused _ => false

/-- The next state, where there is one. -/
def nextOf : Host.Outcome State Fault Refusal → Option State
  | .next t => some t
  | .fault _ => none
  | .refused _ => none

/-- An outcome with its next state changed. -/
def mapNext (f : State → State) : Host.Outcome State Fault Refusal → Host.Outcome State Fault Refusal
  | .next t => .next (f t)
  | .fault x => .fault x
  | .refused x => .refused x

/-- The device always answers: it is the reference device (R61). -/
def Device.isMemStream : Device → Bool
  | .memStream _ => true
  | .oracle _ => false

/-- The byte position of a device (R55). -/
def Device.bytePos : Device → Nat
  | .memStream m => m.pos
  | .oracle o => o.pos

/-- R59: how many transactions a free device has yet to answer. -/
def OracleDevice.left (o : OracleDevice) : Nat := o.answers.length

/-! ### Commands by ordering -/

/-- `RM.OPEN` or `RL.OPEN`. -/
def rdOpen : BitOrder → Instr
  | .msb => .rmOpen
  | .lsb => .rlOpen

/-- `RM.BIT` or `RL.BIT`. -/
def rdBit : BitOrder → Instr
  | .msb => .rmBit
  | .lsb => .rlBit

/-- `RM.BITS32` or `RL.BITS32`. -/
def rdBits32 : BitOrder → Instr
  | .msb => .rmBits32
  | .lsb => .rlBits32

/-- `RM.BITS64` or `RL.BITS64`. -/
def rdBits64 : BitOrder → Instr
  | .msb => .rmBits64
  | .lsb => .rlBits64

/-- `RM.GETPOS` or `RL.GETPOS`. -/
def rdGetpos : BitOrder → Instr
  | .msb => .rmGetpos
  | .lsb => .rlGetpos

/-- `RM.SETPOS` or `RL.SETPOS`. -/
def rdSetpos : BitOrder → Instr
  | .msb => .rmSetpos
  | .lsb => .rlSetpos

/-- `RM.LEN` or `RL.LEN`. -/
def rdLen : BitOrder → Instr
  | .msb => .rmLen
  | .lsb => .rlLen

/-- `RM.EOS` or `RL.EOS`. -/
def rdEos : BitOrder → Instr
  | .msb => .rmEos
  | .lsb => .rlEos

/-- `RM.CLOSE` or `RL.CLOSE`. -/
def rdClose : BitOrder → Instr
  | .msb => .rmClose
  | .lsb => .rlClose

/-- `WM.OPEN` or `WL.OPEN`. -/
def wrOpen : BitOrder → Instr
  | .msb => .wmOpen
  | .lsb => .wlOpen

/-- `WM.BIT` or `WL.BIT`. -/
def wrBit : BitOrder → Instr
  | .msb => .wmBit
  | .lsb => .wlBit

/-- `WM.BITS32` or `WL.BITS32`. -/
def wrBits32 : BitOrder → Instr
  | .msb => .wmBits32
  | .lsb => .wlBits32

/-- `WM.BITS64` or `WL.BITS64`. -/
def wrBits64 : BitOrder → Instr
  | .msb => .wmBits64
  | .lsb => .wlBits64

/-- `WM.REP` or `WL.REP`. -/
def wrRep : BitOrder → Instr
  | .msb => .wmRep
  | .lsb => .wlRep

/-- `WM.GETPOS` or `WL.GETPOS`. -/
def wrGetpos : BitOrder → Instr
  | .msb => .wmGetpos
  | .lsb => .wlGetpos

/-- `WM.LEN` or `WL.LEN`. -/
def wrLen : BitOrder → Instr
  | .msb => .wmLen
  | .lsb => .wlLen

/-- `WM.FLUSH` or `WL.FLUSH`. -/
def wrFlush : BitOrder → Instr
  | .msb => .wmFlush
  | .lsb => .wlFlush

/-- `WM.CLOSE` or `WL.CLOSE`. -/
def wrClose : BitOrder → Instr
  | .msb => .wmClose
  | .lsb => .wlClose

/-- R91: the reader unit of an ordering. -/
def readerUnit : BitOrder → UnitName
  | .msb => .bitstreamReaderMsb
  | .lsb => .bitstreamReaderLsb

/-- R91: the writer unit of an ordering. -/
def writerUnit : BitOrder → UnitName
  | .msb => .bitstreamWriterMsb
  | .lsb => .bitstreamWriterLsb

/-- R51, R91: the port of a unit; the endian units have none. -/
def unitPort : UnitName → Option Port
  | .varintEncoder => some .p0
  | .varintDecoder => some .p1
  | .bitstreamReaderMsb => some .p2
  | .bitstreamWriterMsb => some .p3
  | .bitstreamReaderLsb => some .p4
  | .bitstreamWriterLsb => some .p5
  | .endianSwap16 => none
  | .endianSwap32 => none
  | .endianSwap64 => none

/-- R263: the error kinds a command can raise. -/
def mayRaise : Instr → List ErrorKind
  | .venc => [.endOfStream, .ioError]
  | .vencb | .vcnt => []
  | .vdec => [.endOfStream, .overflowError, .ioError]
  | .rmOpen | .rlOpen | .wmOpen | .wlOpen => []
  | .rmBit | .rlBit => [.endOfStream, .illegalState, .ioError]
  | .rmBits32 | .rmBits64 | .rlBits32 | .rlBits64 => [.endOfStream, .invalidArgument, .illegalState, .ioError]
  | .rmGetpos | .rlGetpos | .rmLen | .rlLen => [.illegalState, .notSupported]
  | .rmSetpos | .rlSetpos => [.endOfStream, .illegalState, .ioError, .notSupported]
  | .rmEos | .rlEos => [.illegalState, .ioError]
  | .rmClose | .rlClose => [.illegalState]
  | .wmBit | .wlBit => [.endOfStream, .illegalState, .ioError]
  | .wmBits32 | .wmBits64 | .wmRep | .wlBits32 | .wlBits64 | .wlRep =>
    [.endOfStream, .invalidArgument, .illegalState, .ioError]
  | .wmGetpos | .wlGetpos | .wmLen | .wlLen => [.illegalState, .notSupported]
  | .wmFlush | .wlFlush | .wmClose | .wlClose => [.endOfStream, .illegalState, .ioError]
  | .swap16 | .swap32 | .swap64 | .tobe16 | .tobe32 | .tobe64 => []
  | .frombe16 | .frombe32 | .frombe64 => [.outOfRange]

/-! ### Bits and bytes -/

/-- R65: the bits of a byte in stream order. -/
def bitsOfByte (o : BitOrder) (b : Byte) : List Bool :=
  match o with
  | .msb => [b.getLsbD 7, b.getLsbD 6, b.getLsbD 5, b.getLsbD 4, b.getLsbD 3, b.getLsbD 2, b.getLsbD 1, b.getLsbD 0]
  | .lsb => [b.getLsbD 0, b.getLsbD 1, b.getLsbD 2, b.getLsbD 3, b.getLsbD 4, b.getLsbD 5, b.getLsbD 6, b.getLsbD 7]

/-- R65: the bits of a stream of bytes. -/
def bitsOfBytes (o : BitOrder) (bs : List Byte) : List Bool := bs.flatMap (bitsOfByte o)

/-- R66: the number whose bits, most significant first, are `l`. -/
def valueOfBits (l : List Bool) : Nat := l.foldl (fun acc b => 2 * acc + b.toNat) 0

/-- R66: the `n` low bits of a field, most significant first. -/
def fieldBits (v : Word64) : Nat → List Bool
  | 0 => []
  | i + 1 => v.getLsbD i :: fieldBits v i

/-- R65: the byte whose first bits in stream order are `l`, zeros after them. -/
def byteOfBits (o : BitOrder) (l : List Bool) : Byte :=
  match o with
  | .msb => BitVec.ofNat 8 (valueOfBits ((l ++ List.replicate 8 false).take 8))
  | .lsb => BitVec.ofNat 8 (valueOfBits ((l ++ List.replicate 8 false).take 8).reverse)

/-- R181: the first `m` whole bytes of a sequence of bits. -/
def packBytes (o : BitOrder) : Nat → List Bool → List Byte
  | 0, _ => []
  | m + 1, l => byteOfBits o (l.take 8) :: packBytes o m (l.drop 8)

/-- R203: a byte with its bits in reverse order. -/
def bitReverse (b : Byte) : Byte := byteOfBits .lsb (bitsOfByte .msb b)

/-- R120: the value of a sequence of varint bytes, before it is kept to 64 bits. -/
def varintValue : List Byte → Nat
  | [] => 0
  | b :: bs => b.toNat % 128 + 128 * varintValue bs

/-! ### What devices answer -/

/-- The device answers `n` reads with bytes: those bytes, and the device after them. -/
def pullBytes : Nat → Device → Option (List Byte × Device)
  | 0, d => some ([], d)
  | n + 1, d =>
    match d.srcRead with
    | some (.byte b, d1) =>
      match pullBytes n d1 with
      | some (bs, d2) => some (b :: bs, d2)
      | none => none
    | _ => none

/-- The device takes all the bytes: the device after them. -/
def pushBytes : List Byte → Device → Option Device
  | [], d => some d
  | b :: bs, d =>
    match d.snkWrite b with
    | some (.ok, d1) => pushBytes bs d1
    | _ => none

/-- R53, R252, R259: the error a read's answer becomes; a byte is none. -/
def SrcAnswer.error? : SrcAnswer → Option ErrorKind
  | .byte _ => none
  | .eof => some .endOfStream
  | .ioError => some .ioError

/-- R54, R252, R259: the error a write's answer becomes. -/
def SnkAnswer.error? : SnkAnswer → Option ErrorKind
  | .ok => none
  | .endOfStream => some .endOfStream
  | .ioError => some .ioError

/-! ### Readers and writers -/

/-- R31: the bits of the buffered byte a reader has not consumed. -/
def unreadBits (o : BitOrder) (u : BitUnit) : List Bool := (bitsOfByte o u.buf).drop u.cur.val

/-- R32: the bits a writer holds that its sink has not received. -/
def pendingBits (o : BitOrder) (u : BitUnit) : List Bool := (bitsOfByte o u.buf).take u.cur.val

/-- R297: the reads that `n` bits from cursor `c` take. -/
def pullsNeeded (c : Cursor) (n : Nat) : Nat := (n + c.val - 8 + 7) / 8

/-- R141: the cursor after `n` bits from cursor `c`. -/
def cursorAfter (c : Cursor) (n : Nat) : Cursor :=
  if n = 0 then c else ⟨(c.val + n - 1) % 8 + 1, by omega⟩

/-- R142: the bit position of a reader on its device. -/
def bitPosition (o : BitOrder) (s : State) : Word64 :=
  BitVec.ofInt 64 (8 * ((s.port (readPort o)).bytePos : Int) + (s.reader o).cur.val - 8)

/-- R162: `n` successive `BIT` commands, packed first bit highest; it ends where one of them fails. -/
def bitByBitRead (o : BitOrder) : Nat → Word64 → State → Host.Outcome State Fault Refusal
  | 0, r, s => .next { s with status := 0, res := r }
  | n + 1, r, s =>
    match exec (rdBit o) s with
    | .next t => if t.status = 0 then bitByBitRead o n ((r <<< 1) ||| t.res) t else .next t
    | .fault f => .fault f
    | .refused x => .refused x

/-- R204: successive `BIT` commands, one for each bit of the list, `ARG0` set for each and restored after it; it ends
where one of them fails. -/
def bitByBitWrite (o : BitOrder) : List Bool → State → Host.Outcome State Fault Refusal
  | [], s => .next { s with status := 0 }
  | b :: bs, s =>
    match exec (wrBit o) { s with arg0 := if b then 1 else 0 } with
    | .next t =>
      if t.status = 0 then bitByBitWrite o bs { t with arg0 := s.arg0 } else .next { t with arg0 := s.arg0 }
    | .fault f => .fault f
    | .refused x => .refused x

/-- R202: one writing command with its operands. -/
inductive WriteCmd where
  | bit (b : Bool)
  | bits32 (field : Word64) (n : Fin 32)
  | bits64 (field : Word64) (n : Fin 64)
  | rep (b : Bool) (n : Fin (2 ^ 31))
deriving DecidableEq, Repr

/-- R202: the bits a writing command writes. -/
def WriteCmd.bits : WriteCmd → List Bool
  | .bit b => [b]
  | .bits32 f n => fieldBits f n.val
  | .bits64 f n => fieldBits f n.val
  | .rep b n => List.replicate n.val b

/-- R202: a writing command issued with its operands. -/
def WriteCmd.issue (o : BitOrder) (c : WriteCmd) (s : State) : Host.Outcome State Fault Refusal :=
  match c with
  | .bit b => exec (wrBit o) { s with arg0 := if b then 1 else 0 }
  | .bits32 f n => exec (wrBits32 o) { s with arg0 := f, arg1 := BitVec.ofNat 32 n.val }
  | .bits64 f n => exec (wrBits64 o) { s with arg0 := f, arg1 := BitVec.ofNat 32 n.val }
  | .rep b n => exec (wrRep o) { s with arg0 := if b then 1 else 0, arg1 := BitVec.ofNat 32 n.val }

/-- R202: writing commands issued one after another, each of them succeeding. -/
def writeAll (o : BitOrder) : List WriteCmd → State → Option State
  | [], s => some s
  | c :: cs, s =>
    match c.issue o s with
    | .next t => if t.status = 0 then writeAll o cs t else none
    | _ => none

/-- R202: one reading command with its operand. -/
inductive ReadCmd where
  | bit
  | bits32 (n : Fin 33)
  | bits64 (n : Fin 65)
deriving DecidableEq, Repr

/-- R202: how many bits a reading command reads. -/
def ReadCmd.count : ReadCmd → Nat
  | .bit => 1
  | .bits32 n => n.val
  | .bits64 n => n.val

/-- R202: a reading command issued with its operand. -/
def ReadCmd.issue (o : BitOrder) (c : ReadCmd) (s : State) : Host.Outcome State Fault Refusal :=
  match c with
  | .bit => exec (rdBit o) s
  | .bits32 n => exec (rdBits32 o) { s with arg1 := BitVec.ofNat 32 n.val }
  | .bits64 n => exec (rdBits64 o) { s with arg1 := BitVec.ofNat 32 n.val }

/-- R202: reading commands issued one after another, each of them succeeding, and the bits of their results. -/
def readAll (o : BitOrder) : List ReadCmd → State → Option (List Bool × State)
  | [], s => some ([], s)
  | c :: cs, s =>
    match c.issue o s with
    | .next t =>
      if t.status = 0 then
        match readAll o cs t with
        | some (bs, t') => some (fieldBits t.res c.count ++ bs, t')
        | none => none
      else none
    | _ => none

/-- A reference device holding some bytes, open, without a capacity limit, at position 0. -/
def streamOf (bs : List Byte) (seekable : Bool) : Device :=
  .memStream { data := bs, pos := 0, seekable := seekable, cap := none, closed := false }

end Sys2Proof.Machine
end

