-- ==== Sys2Proof/Certificates/Slice0/Obligations.lean ====
section
/-! DEFINITION. The statements for the provers, in the order of OBLIGATIONS.json. Each docstring names the rules it
rests on. `o` ranges over both orderings, so a statement about `rdBit o` is one about `RM.BIT` and about `RL.BIT`. A
next state written as a record update is the whole next state: what it does not name is unchanged. -/

open Sys2Proof Sys2Proof.Machine

/-! ### Encoding and the step -/

/-- Words of R97, one or more of each family, decode to their commands. -/
def Obligations.OpcodeWordsDecode : Prop :=
  decode 0b00000000#8 = .ok .venc ∧ decode 0b00000010#8 = .ok .vcnt ∧ decode 0b00010000#8 = .ok .vdec ∧
  decode 0b00100101#8 = .ok .rmSetpos ∧ decode 0b01000111#8 = .ok .rlEos ∧ decode 0b00110100#8 = .ok .wmRep ∧
  decode 0b01011000#8 = .ok .wlClose ∧ decode 0b01100010#8 = .ok .frombe16 ∧ decode 0b01110000#8 = .ok .swap32 ∧
  decode 0b10000001#8 = .ok .tobe64

/-- R90, R97: decoding an opcode gives its command, and only its own opcode decodes to a command. -/
def Obligations.DecodeEncodeAgree : Prop :=
  ∀ (i : Instr) (c : Byte), decode c = .ok i ↔ encode i = c

/-- R98, R260: the bytes R98 lists, and no others, are illegal; there are 207. A host write of one completes with
`STATUS` 7 and changes nothing but `STATUS` and `RES` (and the model's own draw counter and the host's list). -/
def Obligations.IllegalBytesComplete : Prop :=
  ∀ c : Byte,
    let illegal : Nat → Bool := fun n =>
      (3 ≤ n && n ≤ 0x0F) || (0x11 ≤ n && n ≤ 0x1F) || (0x29 ≤ n && n ≤ 0x2F) || (0x39 ≤ n && n ≤ 0x3F) ||
      (0x49 ≤ n && n ≤ 0x4F) || (0x59 ≤ n && n ≤ 0x5F) || (0x63 ≤ n && n ≤ 0x6F) || (0x73 ≤ n && n ≤ 0x7F) ||
      (0x83 ≤ n && n ≤ 0xFF)
    (decode c = .error (.illegalCommand c) ↔ illegal c.toNat = true) ∧
    (List.range 256).countP illegal = 207 ∧
    ∀ (s : State) (rest : List Event), illegal c.toNat = true →
      s.script = .host (.write 0 (c.setWidth 64)) :: rest →
      ∃ v : Word64, step s =
        .next { s with
          status := 7, res := v, draws := s.draws + 1, script := rest, txIndex := s.txIndex + 1 }

/-- R22, R103: a host write to `CMD` of a byte that decodes runs exactly that command. Around it the step only takes
the access off the host's list and advances the transaction index (R24). -/
def Obligations.StepRunsDecodedCommand : Prop :=
  ∀ (s : State) (i : Instr) (v : Word64) (rest : List Event),
    s.script = .host (.write 0 v) :: rest → v.toNat < 256 → decode (v.setWidth 8) = .ok i →
    step s = exec i { s with script := rest, txIndex := s.txIndex + 1 }

/-- R22, R97: with any command's opcode placed as the host's next write, the very next step runs that command and
leaves the rest of the host's list. -/
def Obligations.FetchedOpcodeRuns : Prop :=
  ∀ (s : State) (i : Instr),
    decodeTableWord 8 (encode i).toNat = some i ∧
    step (s.withFetchWord 8 (encode i).toNat) = exec i { s with txIndex := s.txIndex + 1 }

/-- R21, R23, R25 to R29, R36: what a host write does to each register but `CMD`. -/
def Obligations.HostWritesRegisters : Prop :=
  ∀ (s : State) (v : Word64) (rest : List Event),
    let s1 : State := { s with script := rest, txIndex := s.txIndex + 1 }
    (v.toNat < 256 → s.script = .host (.write 1 v) :: rest → step s = .next s1) ∧
    (s.script = .host (.write 2 v) :: rest → step s = .next { s1 with arg0 := v }) ∧
    (v.toNat < 2 ^ 32 → s.script = .host (.write 3 v) :: rest → step s = .next { s1 with arg1 := v.setWidth 32 }) ∧
    (s.script = .host (.write 4 v) :: rest → step s = .next s1) ∧
    (v.toNat ≤ s.bufBytes → s.script = .host (.write 5 v) :: rest →
      step s = .next { s1 with blen := v.setWidth 8 }) ∧
    ∀ i, i < s.bufBytes → v.toNat < 256 → s.script = .host (.write (16 + i) v) :: rest → Memory.wf s.buf →
      ∃ m : Memory, step s = .next { s1 with buf := m } ∧ Memory.read m i = v.setWidth 8 ∧
        ∀ a, a ≠ i → Memory.read m a = Memory.read s.buf a

/-- R21, R36: what a host read of each register returns; nothing else changes. A read of `CMD` returns some byte
(R22; the model's free value of entry 4). -/
def Obligations.HostReadsRegisters : Prop :=
  ∀ (s : State) (no : Nat) (rest : List Event), s.script = .host (.read no) :: rest →
    let s1 : State := { s with script := rest, txIndex := s.txIndex + 1 }
    (no = 0 → ∃ b : Byte, step s = .next { s1 with rdata := b.setWidth 64, draws := s.draws + 1 }) ∧
    (no = 1 → step s = .next { s1 with rdata := s.status.setWidth 64 }) ∧
    (no = 2 → step s = .next { s1 with rdata := s.arg0 }) ∧
    (no = 3 → step s = .next { s1 with rdata := s.arg1.setWidth 64 }) ∧
    (no = 4 → step s = .next { s1 with rdata := s.res }) ∧
    (no = 5 → step s = .next { s1 with rdata := s.blen.setWidth 64 }) ∧
    ∀ i, i < s.bufBytes → no = 16 + i →
      step s = .next { s1 with rdata := (Memory.read s.buf i).setWidth 64 }

/-- R28, R36, R63: the model refuses a host access exactly when it is not one the spec defines: a number that is no
register, a value above `BUF_BYTES` to `BLEN`, a value wider than the register (the last is deduced, entry 13). That a
write to `CMD` of a writer's `BIT`, `BITS32`, `BITS64` or `REP` with a non-zero count at `cur` = 8 is not refused is THE
MODEL'S CHOICE of entry 5 (R201 says a model refuses them). -/
def Obligations.HostAccessRefusedExactly : Prop :=
  ∀ (s : State) (t : Transaction) (rest : List Event), s.script = .host t :: rest →
    ((∃ x, step s = .refused x) ↔ t.wellFormed s.bufBytes = false)

/-- R37, R280: the platform's reset. The four unspecified registers take some values (entry 2); the devices are not
touched, and the host's list goes on (entry 10). -/
def Obligations.ResetEventReleasesUnits : Prop :=
  ∀ (s : State) (rest : List Event), s.script = .reset :: rest →
    ∃ (a0 : Word64) (a1 : Word32) (r : Word64) (m : Memory),
      Memory.wf m ∧ (∀ c ∈ m, c.1 < s.bufBytes) ∧
      step s = .next { s with
        status := 0, arg0 := a0, arg1 := a1, res := r, blen := 0, buf := m
        rm := { att := false, buf := 0, cur := 8 }
        wm := { att := false, buf := 0, cur := 0 }
        rl := { att := false, buf := 0, cur := 8 }
        wl := { att := false, buf := 0, cur := 0 }
        draws := s.draws + 1, script := rest, txIndex := s.txIndex + 1 }

/-- R37: the values the table states for the state after reset. -/
def Obligations.ResetValuesOfR37 : Prop :=
  State.reset.status = 0 ∧ State.reset.blen = 0 ∧
  (∀ o, State.reset.reader o = { att := false, buf := 0, cur := 8 }) ∧
  ∀ o, State.reset.writer o = { att := false, buf := 0, cur := 0 }

/-! ### Invariants and frames -/

/-- R23, R28, R32, R62: whatever the host, the platform and the devices do, a step keeps the invariant: `STATUS` is a
code of R251, the byte buffer is canonical and inside `BUF`, `BLEN` is legal, a writer's unwritten places are zero and
a released writer holds no pending bits. At a writer's `cur` = 8, which R201 leaves open, this rests on THE MODEL'S
CHOICE of entry 5. -/
def Obligations.StepKeepsInvariant : Prop :=
  ∀ s t : State, s.Inv → step s = .next t → t.Inv

/-- The state after reset meets the invariant. -/
def Obligations.ResetMeetsInvariant : Prop := State.reset.Inv

/-- R31: every command keeps the reader's relation to its device: with unread bits in the buffered byte, the device
stands one byte past that byte. -/
def Obligations.ReaderLookaheadKept : Prop :=
  ∀ (i : Instr) (s t : State),
    (∀ o, LookaheadOk (s.reader o) (s.port (readPort o))) → exec i s = .next t →
    ∀ o, LookaheadOk (t.reader o) (t.port (readPort o))

/-- R9, R59(b): no step changes `BUF_BYTES` or any port's `SEEKABLE` (the platform's wiring event included, entry 14).
At a writer's `cur` = 8, which R201 leaves open, this rests on THE MODEL'S CHOICE of entry 5. -/
def Obligations.ParametersNeverChange : Prop :=
  ∀ s t : State, step s = .next t →
    t.bufBytes = s.bufBytes ∧ ∀ p, (t.port p).seekable = (s.port p).seekable

/-- R2, R51: a command neither reads nor touches a device that is not on its own unit's port. At a writer's `cur` = 8,
which R201 leaves open, this rests on THE MODEL'S CHOICE of entry 5. -/
def Obligations.OtherPortsIrrelevant : Prop :=
  ∀ (i : Instr) (s : State) (p : Port) (d : Device), unitPort i.unit ≠ some p →
    exec i (s.setPort p d) = mapNext (fun t => t.setPort p d) (exec i s)

/-- R2: a command neither reads nor writes the record of another unit. At a writer's `cur` = 8, which R201 leaves
open, this rests on THE MODEL'S CHOICE of entry 5. -/
def Obligations.OtherRecordsIrrelevant : Prop :=
  ∀ (i : Instr) (s : State) (o : BitOrder) (u : BitUnit),
    (i.unit ≠ readerUnit o → exec i (s.setReader o u) = mapNext (fun t => t.setReader o u) (exec i s)) ∧
    (i.unit ≠ writerUnit o → exec i (s.setWriter o u) = mapNext (fun t => t.setWriter o u) (exec i s))

/-- R20, R21, R25 to R27, R51, R96: what every command leaves unchanged. No command writes `ARG0` or `ARG1`; only
VENCB and TOBEn write `BUF` and `BLEN`; a successful command without a scalar result leaves `RES`; other units'
records and ports stay. At a writer's `cur` = 8, which R201 leaves open, this rests on THE MODEL'S CHOICE of entry 5.
-/
def Obligations.CommandsKeepEverythingElse : Prop :=
  ∀ (i : Instr) (s t : State), exec i s = .next t →
    t.arg0 = s.arg0 ∧ t.arg1 = s.arg1 ∧ t.bufExtra = s.bufExtra ∧ t.script = s.script ∧ t.txIndex = s.txIndex ∧
    t.rdata = s.rdata ∧
    (i ∉ [Instr.vencb, .tobe16, .tobe32, .tobe64] →
      t.blen = s.blen ∧ ∀ a, Memory.read t.buf a = Memory.read s.buf a) ∧
    (t.status = 0 →
      i ∈ [Instr.rmOpen, .rmSetpos, .rmClose, .rlOpen, .rlSetpos, .rlClose, .wmOpen, .wmBit, .wmBits32, .wmBits64,
        .wmRep, .wmFlush, .wmClose, .wlOpen, .wlBit, .wlBits32, .wlBits64, .wlRep, .wlFlush, .wlClose, .tobe16,
        .tobe32, .tobe64] → t.res = s.res) ∧
    (∀ p, unitPort i.unit ≠ some p → t.port p = s.port p) ∧
    (∀ o, i.unit ≠ readerUnit o → t.reader o = s.reader o) ∧
    ∀ o, i.unit ≠ writerUnit o → t.writer o = s.writer o

/-! ### Errors -/

/-- R251, R257, R258: the code of each kind, and all that recording it changes. -/
def Obligations.ErrorCodesOfR251 : Prop :=
  ∀ s : State,
    (raiseError .endOfStream s).status = 1 ∧ (raiseError .overflowError s).status = 2 ∧
    (raiseError .invalidArgument s).status = 3 ∧ (raiseError .illegalState s).status = 4 ∧
    (raiseError .outOfRange s).status = 5 ∧ (raiseError .ioError s).status = 6 ∧
    (raiseError .illegalCommand s).status = 7 ∧ (raiseError .notSupported s).status = 8 ∧
    ∀ e, ∃ v : Word64,
      raiseError e s = { s with status := (raiseError e s).status, res := v, draws := s.draws + 1 }

/-- R263: a command ends with success or with an error its row of the table marks, each marked error happens in some
state, and every illegal byte raises `IllegalCommand`. For a writer's bit commands at `cur` = 8, which R201 leaves open,
the first clause rests on THE MODEL'S CHOICE of entry 5; so the statement is derived. -/
def Obligations.CommandsRaiseListedErrors : Prop :=
  (∀ (i : Instr) (s t : State), exec i s = .next t → t.status = 0 ∨ ∃ e ∈ mayRaise i, t.status = errorCode e) ∧
  (∀ (i : Instr) (e : ErrorKind), e ∈ mayRaise i → ∃ s t : State, exec i s = .next t ∧ t.status = errorCode e) ∧
  ∀ (c : Byte) (s : State), (∀ i, decode c ≠ .ok i) → issue c s = .next (raiseError .illegalCommand s)

/-- R255: every command of a released unit but its `OPEN` ends with `IllegalState` and does nothing else. -/
def Obligations.ReleasedUnitsRaiseIllegalState : Prop :=
  ∀ (i : Instr) (s : State) (o : BitOrder),
    (i.unit = readerUnit o → i ≠ rdOpen o → (s.reader o).att = false → exec i s = .next (raiseError .illegalState s)) ∧
    (i.unit = writerUnit o → i ≠ wrOpen o → (s.writer o).att = false → exec i s = .next (raiseError .illegalState s))

/-- R94, R254, R262: a count outside a command's range ends the command with `InvalidArgument` before any port
transaction or other state change. -/
def Obligations.CountsOutsideRangeRaise : Prop :=
  ∀ (s : State) (o : BitOrder),
    let n := s.arg1.toInt
    ((s.reader o).att = true → (n < 0 ∨ 32 < n) → exec (rdBits32 o) s = .next (raiseError .invalidArgument s)) ∧
    ((s.reader o).att = true → (n < 0 ∨ 64 < n) → exec (rdBits64 o) s = .next (raiseError .invalidArgument s)) ∧
    ((s.writer o).att = true → (n < 0 ∨ 31 < n) → exec (wrBits32 o) s = .next (raiseError .invalidArgument s)) ∧
    ((s.writer o).att = true → (n < 0 ∨ 63 < n) → exec (wrBits64 o) s = .next (raiseError .invalidArgument s)) ∧
    ((s.writer o).att = true → n < 0 → exec (wrRep o) s = .next (raiseError .invalidArgument s))

/-- R281: the life of a unit. Only `OPEN` opens it, only a successful `FLUSH` or `CLOSE` releases it. At a writer's
`cur` = 8, which R201 leaves open, this rests on THE MODEL'S CHOICE of entry 5. -/
def Obligations.UnitLifecycle : Prop :=
  ∀ (i : Instr) (s t : State) (o : BitOrder), exec i s = .next t →
    ((t.reader o).att =
      if i = rdOpen o then true else if i = rdClose o ∧ t.status = 0 then false else (s.reader o).att) ∧
    ((t.writer o).att =
      if i = wrOpen o then true
      else if (i = wrFlush o ∨ i = wrClose o) ∧ t.status = 0 then false
      else (s.writer o).att)

/-- R60, R250, R296: no command is refused, and a command has no final state only when the device on its own port does
not answer, or when `BLEN` exceeds `BUF_BYTES` (the model's entry 12; no run reaches it). That no command is refused
holds for a writer's `BIT`, `BITS32`, `BITS64` and `REP` with a non-zero count at `cur` = 8 by THE MODEL'S CHOICE of
entry 5 alone (R201 says a model refuses them). -/
def Obligations.CommandsHangOnlyOnSilentDevices : Prop :=
  ∀ (i : Instr) (s : State),
    (∀ x, exec i s ≠ .refused x) ∧
    ∀ f, exec i s = .fault f →
      (∃ (p : Port) (d : OracleDevice), f = .portSilent p ∧ unitPort i.unit = some p ∧ s.port p = .oracle d) ∨
      (f = .bufAbsent ∧ s.bufBytes < s.blen.toNat ∧ i ∈ [Instr.frombe16, .frombe32, .frombe64])

/-- R61, R250: with the reference device on every port and a legal `BLEN`, every command completes; a writer's `BIT`,
`BITS32`, `BITS64` and `REP` with a non-zero count at `cur` = 8 do so by THE MODEL'S CHOICE of entry 5 (R201 leaves them
open). -/
def Obligations.ReferenceDevicesLetCommandsComplete : Prop :=
  ∀ (i : Instr) (s : State), (∀ p, (s.port p).isMemStream = true) → s.blen.toNat ≤ s.bufBytes →
    ∃ t, exec i s = .next t

/-- R54, R61: what a write does to a device. A byte written to an open reference device below its capacity stands at the
device's former position, the other bytes keep their values, a gap is filled with zeros, and the position is one
further. A free device that answers `Ok` holds the byte at its former position, what it held elsewhere stays, and its
position is one further. A device that fails has not taken the byte. -/
def Obligations.DeviceWrites : Prop :=
  (∀ (m : MemStream) (b : Byte), m.closed = false → (∀ k, m.cap = some k → m.pos < k) →
    ∃ data, (Device.memStream m).snkWrite b = some (.ok, .memStream { m with data := data, pos := m.pos + 1 }) ∧
      data.length = max m.data.length (m.pos + 1) ∧ data[m.pos]? = some b ∧
      (∀ j, j < m.data.length → j ≠ m.pos → data[j]? = m.data[j]?) ∧
      ∀ j, m.data.length ≤ j → j < m.pos → data[j]? = some 0) ∧
  (∀ (o : OracleDevice) (b : Byte) (d : Device), (Device.oracle o).snkWrite b = some (.ok, d) →
    ∃ e : OracleDevice, d = .oracle e ∧ heldAt e.held o.pos = some b ∧ e.pos = o.pos + 1 ∧
      ∀ a, a ≠ o.pos → heldAt e.held a = heldAt o.held a) ∧
  (∀ (o : OracleDevice) (b : Byte) (a : SnkAnswer) (d : Device), (Device.oracle o).snkWrite b = some (a, d) → a ≠ .ok →
    ∃ e : OracleDevice, d = .oracle e ∧ e.held = o.held) ∧
  ∀ (m : MemStream) (b : Byte) (a : SnkAnswer) (d : Device),
    (Device.memStream m).snkWrite b = some (a, d) → a ≠ .ok → d = .memStream m

/-! ### Varint -/

/-- R120, R121, R122: the bytes of a value: at least one, at most ten, each but the last with bit 7 set, the last with
it clear and not zero unless it is the only byte, their groups adding up to the value, and no shorter sequence able to
hold it. -/
def Obligations.VarintBytesShape : Prop :=
  ∀ v : Word64,
    let bs := varintBytes v
    1 ≤ bs.length ∧ bs.length ≤ 10 ∧ varintValue bs = v.toNat ∧
    (∀ k b, bs[k]? = some b → (b.getLsbD 7 = true ↔ k + 1 < bs.length)) ∧
    (1 < bs.length → bs.getLast? ≠ some 0) ∧
    v.toNat < 2 ^ (7 * bs.length) ∧ ∀ m, 1 ≤ m → m < bs.length → 2 ^ (7 * m) ≤ v.toNat

/-- R124: `VENC`. If the sink on P0 takes the bytes, the command completes with their number; if it refuses one, the
bytes before it stay written and the command ends with the sink's error. -/
def Obligations.VencWritesVarint : Prop :=
  encode .venc = 0x00#8 ∧
  ∀ s : State,
    let bs := varintBytes s.arg0
    (∀ d, pushBytes bs (s.port .p0) = some d →
      exec .venc s = .next { s.setPort .p0 d with status := 0, res := BitVec.ofNat 64 bs.length }) ∧
    ∀ (k : Nat) (b : Byte) (d1 d2 : Device) (a : SnkAnswer) (e : ErrorKind),
      bs[k]? = some b → pushBytes (bs.take k) (s.port .p0) = some d1 → d1.snkWrite b = some (a, d2) →
      a.error? = some e → exec .venc s = .next (raiseError e (s.setPort .p0 d2))

/-- R125: `VENCB` completes in every state with a canonical `BUF`: the bytes from `BUF[0]`, `BLEN` and `RES` their
number, every other byte of `BUF` as it was. -/
def Obligations.VencbFillsBuffer : Prop :=
  encode .vencb = 0x01#8 ∧
  ∀ s : State, Memory.wf s.buf →
    let bs := varintBytes s.arg0
    ∃ m : Memory,
      exec .vencb s = .next { s with
        status := 0, buf := m, blen := BitVec.ofNat 8 bs.length, res := BitVec.ofNat 64 bs.length } ∧
      (∀ k b, bs[k]? = some b → Memory.read m k = b) ∧
      ∀ a, bs.length ≤ a → Memory.read m a = Memory.read s.buf a

/-- R122, R123, R126: `VCNT` completes in every state and reports the least count of 1 to 10 whose groups hold the
value, ten for every negative one; it writes nothing else. -/
def Obligations.VcntReportsLength : Prop :=
  encode .vcnt = 0x02#8 ∧
  ∀ s : State, ∃ n : Nat,
    exec .vcnt s = .next { s with status := 0, res := BitVec.ofNat 64 n } ∧
    1 ≤ n ∧ n ≤ 10 ∧ s.arg0.toNat < 2 ^ (7 * n) ∧ (∀ m, 1 ≤ m → m < n → 2 ^ (7 * m) ≤ s.arg0.toNat) ∧
    (s.arg0.toInt < 0 → n = 10)

/-- R127: `VDEC`. A sequence that terminates within ten bytes decodes to its value kept to 64 bits and nothing after it
is pulled; an answer that is no byte ends the command with its error, the bytes before it consumed; ten continuation
bytes end it with `OverflowError` and no eleventh pull; a silent device hangs it (R60). -/
def Obligations.VdecDecodes : Prop :=
  encode .vdec = 0x10#8 ∧
  ∀ (s : State) (bs : List Byte) (d : Device), pullBytes bs.length (s.port .p1) = some (bs, d) →
    (∀ b ∈ bs, b.getLsbD 7 = true) →
    (bs.length < 10 →
      (∀ b d2, d.srcRead = some (.byte b, d2) → b.getLsbD 7 = false →
        exec .vdec s =
          .next { s.setPort .p1 d2 with status := 0, res := BitVec.ofNat 64 (varintValue (bs ++ [b])) }) ∧
      (∀ a e d2, d.srcRead = some (a, d2) → a.error? = some e →
        exec .vdec s = .next (raiseError e (s.setPort .p1 d2))) ∧
      (d.srcRead = none → exec .vdec s = .fault (.portSilent .p1))) ∧
    (bs.length = 10 → exec .vdec s = .next (raiseError .overflowError (s.setPort .p1 d)))

/-- R128: for every value, `VDEC` over the bytes `VENC` wrote yields the value and consumes exactly `VarintLen` of it,
whatever follows them, and `VCNT` reports that number. The converse fails: some bytes that decode are not those `VENC`
writes for the decoded value. -/
def Obligations.VarintRoundTrip : Prop :=
  let endOf : List Byte → List Byte → Bool → Device := fun bs tail sk =>
    .memStream { data := bs ++ tail, pos := bs.length, seekable := sk, cap := none, closed := false }
  (∀ (s : State) (tail : List Byte) (sk sk' : Bool), s.port .p0 = streamOf [] sk →
    ∃ (t u : State) (bs : List Byte),
      exec .venc s = .next t ∧ t.status = 0 ∧ t.res = BitVec.ofNat 64 bs.length ∧ t.port .p0 = endOf bs [] sk ∧
      exec .vcnt s = .next u ∧ u.res = t.res ∧
      ∀ r : State, r.port .p1 = streamOf (bs ++ tail) sk' →
        exec .vdec r = .next { r.setPort .p1 (endOf bs tail sk') with status := 0, res := s.arg0 }) ∧
  ∃ (r s t u : State) (bs : List Byte),
    r.port .p1 = streamOf bs true ∧ exec .vdec r = .next t ∧ t.status = 0 ∧ t.port .p1 = endOf bs [] true ∧
    s.arg0 = t.res ∧ s.port .p0 = streamOf [] true ∧ exec .venc s = .next u ∧ u.status = 0 ∧
    u.port .p0 ≠ endOf bs [] true

/-! ### Readers -/

/-- R38, R143, R152: `OPEN` completes in every state and constructs the reader, without a port transaction and with
`RES` unchanged. -/
def Obligations.ReaderOpenConstructs : Prop :=
  encode .rmOpen = 0x20#8 ∧ encode .rlOpen = 0x40#8 ∧
  ∀ (o : BitOrder) (s : State),
    exec (rdOpen o) s = .next { s.setReader o { att := true, buf := 0, cur := 8 } with status := 0 }

/-- R141, R144, R153: `BIT` of an open reader, inside a byte and at a boundary, for every answer of the device. -/
def Obligations.ReaderBitCommand : Prop :=
  encode .rmBit = 0x21#8 ∧ encode .rlBit = 0x41#8 ∧
  ∀ (o : BitOrder) (s : State),
    let u := s.reader o
    let p := readPort o
    let place : Nat → Nat := fun k => match o with | .msb => 7 - k | .lsb => k
    u.att = true →
      (u.cur.val < 8 →
        exec (rdBit o) s = .next { s.setReader o { u with cur := u.cur + 1 } with
          status := 0, res := if u.buf.getLsbD (place u.cur.val) then 1 else 0 }) ∧
      (u.cur.val = 8 →
        (∀ b d, (s.port p).srcRead = some (.byte b, d) →
          exec (rdBit o) s = .next { (s.setPort p d).setReader o { u with buf := b, cur := 1 } with
            status := 0, res := if b.getLsbD (place 0) then 1 else 0 }) ∧
        (∀ a e d, (s.port p).srcRead = some (a, d) → a.error? = some e →
          exec (rdBit o) s = .next (raiseError e (s.setPort p d))) ∧
        ((s.port p).srcRead = none → exec (rdBit o) s = .fault (.portSilent p)))

/-- R141, R145, R146, R154, R155, R297: `BITS32` and `BITS64` of an open reader with a legal count whose source gives
the bytes needed, no more: the result is the next `n` bits of the stream, first bit most significant. -/
def Obligations.ReaderBitsResult : Prop :=
  encode .rmBits32 = 0x22#8 ∧ encode .rlBits32 = 0x42#8 ∧ encode .rmBits64 = 0x23#8 ∧ encode .rlBits64 = 0x43#8 ∧
  ∀ (o : BitOrder) (s : State) (n : Nat) (bs : List Byte) (d : Device),
    let u := s.reader o
    u.att = true → s.arg1.toInt = n → pullBytes (pullsNeeded u.cur n) (s.port (readPort o)) = some (bs, d) →
    let t : State := { (s.setPort (readPort o) d).setReader o
        { att := true, buf := bs.getLastD u.buf, cur := cursorAfter u.cur n } with
      status := 0, res := BitVec.ofNat 64 (valueOfBits ((unreadBits o u ++ bitsOfBytes o bs).take n)) }
    (n ≤ 32 → exec (rdBits32 o) s = .next t) ∧ (n ≤ 64 → exec (rdBits64 o) s = .next t)

/-- R145, R146, R154, R155, R257: a `BITS` command whose source ends or fails before its last byte: the bits before the
failing pull stay consumed, the reader rests at that boundary, and the command ends with the error. -/
def Obligations.ReaderBitsSourceFailure : Prop :=
  ∀ (o : BitOrder) (s : State) (n k : Nat) (bs : List Byte) (d d2 : Device) (a : SrcAnswer) (e : ErrorKind),
    let u := s.reader o
    u.att = true → s.arg1.toInt = n → k < pullsNeeded u.cur n →
    pullBytes k (s.port (readPort o)) = some (bs, d) → d.srcRead = some (a, d2) → a.error? = some e →
    let t : State := raiseError e ((s.setPort (readPort o) d2).setReader o
      { att := true, buf := bs.getLastD u.buf, cur := 8 })
    (n ≤ 32 → exec (rdBits32 o) s = .next t) ∧ (n ≤ 64 → exec (rdBits64 o) s = .next t)

/-- R162: `BITS32` or `BITS64` with count n does what n successive `BIT` commands do, packed first bit highest; also
when it fails part way, and when a device hangs it. -/
def Obligations.ReaderBitsAreBitByBit : Prop :=
  ∀ (o : BitOrder) (s : State) (n : Nat), (s.reader o).att = true → s.arg1.toInt = n →
    (n ≤ 32 → exec (rdBits32 o) s = bitByBitRead o n 0 s) ∧ (n ≤ 64 → exec (rdBits64 o) s = bitByBitRead o n 0 s)

/-- R142, R147, R149, R156, R158, R261: `GETPOS` and `LEN` of an open reader, for every answer of the device. -/
def Obligations.ReaderGetposLen : Prop :=
  encode .rmGetpos = 0x24#8 ∧ encode .rlGetpos = 0x44#8 ∧ encode .rmLen = 0x26#8 ∧ encode .rlLen = 0x46#8 ∧
  ∀ (o : BitOrder) (s : State),
    let u := s.reader o
    let p := readPort o
    u.att = true →
      (∀ v d, (s.port p).getPos = some (.value v, d) →
        exec (rdGetpos o) s = .next { s.setPort p d with
          status := 0, res := BitVec.ofInt 64 (8 * (v.toNat : Int) + u.cur.val - 8) }) ∧
      (∀ d, (s.port p).getPos = some (.notSeekable, d) →
        exec (rdGetpos o) s = .next (raiseError .notSupported (s.setPort p d))) ∧
      (∀ v d, (s.port p).getLen = some (.value v, d) →
        exec (rdLen o) s = .next { s.setPort p d with status := 0, res := BitVec.ofNat 64 (8 * v.toNat) }) ∧
      (∀ d, (s.port p).getLen = some (.notSeekable, d) →
        exec (rdLen o) s = .next (raiseError .notSupported (s.setPort p d)))

/-- R148, R157: `SETPOS` of an open reader to bit position `ARG0`, for every answer of the device. -/
def Obligations.ReaderSetposCommand : Prop :=
  encode .rmSetpos = 0x25#8 ∧ encode .rlSetpos = 0x45#8 ∧
  ∀ (o : BitOrder) (s : State),
    let u := s.reader o
    let p := readPort o
    let v := s.arg0.toNat
    u.att = true →
      (∀ d, (s.port p).setPos (BitVec.ofNat 64 (v / 8)) = some (.notSeekable, d) →
        exec (rdSetpos o) s = .next (raiseError .notSupported (s.setPort p d))) ∧
      ∀ d, (s.port p).setPos (BitVec.ofNat 64 (v / 8)) = some (.ok, d) →
        (v % 8 = 0 → exec (rdSetpos o) s =
          .next { (s.setPort p d).setReader o { u with cur := 8 } with status := 0 }) ∧
        (v % 8 ≠ 0 →
          (∀ b d2, d.srcRead = some (.byte b, d2) → exec (rdSetpos o) s =
            .next { (s.setPort p d2).setReader o { u with buf := b, cur := Fin.ofNat 9 (v % 8) } with
              status := 0 }) ∧
          (∀ a e d2, d.srcRead = some (a, d2) → a.error? = some e → exec (rdSetpos o) s =
            .next (raiseError e ((s.setPort p d2).setReader o { u with cur := 8 }))))

/-- R150, R159: `EOS` of an open reader: inside a byte it touches nothing; at a boundary it pulls one byte and keeps it,
or answers 1 at the end, or ends with `IOError`. -/
def Obligations.ReaderEosCommand : Prop :=
  encode .rmEos = 0x27#8 ∧ encode .rlEos = 0x47#8 ∧
  ∀ (o : BitOrder) (s : State),
    let u := s.reader o
    let p := readPort o
    u.att = true →
      (u.cur.val < 8 → exec (rdEos o) s = .next { s with status := 0, res := 0 }) ∧
      (u.cur.val = 8 →
        (∀ d, (s.port p).srcRead = some (.eof, d) →
          exec (rdEos o) s = .next { s.setPort p d with status := 0, res := 1 }) ∧
        (∀ d, (s.port p).srcRead = some (.ioError, d) →
          exec (rdEos o) s = .next (raiseError .ioError (s.setPort p d))) ∧
        (∀ b d, (s.port p).srcRead = some (.byte b, d) →
          exec (rdEos o) s = .next { (s.setPort p d).setReader o { u with buf := b, cur := 0 } with
            status := 0, res := 0 }))

/-- R58, R151, R160: `CLOSE` of an open reader releases it, keeps the buffered byte and cursor, and closes the device.
That a close is always answered is deduced (entry 20). -/
def Obligations.ReaderCloseCommand : Prop :=
  encode .rmClose = 0x28#8 ∧ encode .rlClose = 0x48#8 ∧
  ∀ (o : BitOrder) (s : State),
    let u := s.reader o
    u.att = true →
    exec (rdClose o) s = .next
      { (s.setPort (readPort o) (s.port (readPort o)).close).setReader o { u with att := false } with status := 0 }

/-- R161(a), (b): after a successful `SETPOS` to v, `GETPOS` completes and returns v, and the next `BIT`, if it
succeeds on a reference device, returns bit v of the stream. -/
def Obligations.SetposThenGetposAndBit : Prop :=
  ∀ (o : BitOrder) (s t : State), exec (rdSetpos o) s = .next t → t.status = 0 →
    (∀ t2, exec (rdGetpos o) t = .next t2 → t2.status = 0 ∧ t2.res = s.arg0) ∧
    ∀ (m : MemStream) (t2 : State), s.port (readPort o) = .memStream m →
      exec (rdBit o) t = .next t2 → t2.status = 0 →
      ∃ b : Byte, m.data[s.arg0.toNat / 8]? = some b ∧
        t2.res = if b.getLsbD (match o with
          | .msb => 7 - s.arg0.toNat % 8
          | .lsb => s.arg0.toNat % 8) then 1 else 0

/-- R161(c), (d), R286: a successful `BIT` raises the bit position by 1, a successful `BITS` by its count; `EOS`,
`LEN` and `GETPOS` leave it, and `GETPOS`, when it succeeds, reports it (R142). That a free device whose `SrcRead`
answers `IOError` has not moved is THE MODEL'S CHOICE of entry 21 (R53 is silent); the `EOS` clause rests on it there.
-/
def Obligations.BitPositionAdvances : Prop :=
  ∀ (o : BitOrder) (s t : State),
    (exec (rdBit o) s = .next t → t.status = 0 → bitPosition o t = bitPosition o s + 1) ∧
    (exec (rdBits32 o) s = .next t → t.status = 0 →
      bitPosition o t = bitPosition o s + BitVec.ofInt 64 s.arg1.toInt) ∧
    (exec (rdBits64 o) s = .next t → t.status = 0 →
      bitPosition o t = bitPosition o s + BitVec.ofInt 64 s.arg1.toInt) ∧
    (exec (rdEos o) s = .next t → bitPosition o t = bitPosition o s) ∧
    (exec (rdLen o) s = .next t → bitPosition o t = bitPosition o s) ∧
    (exec (rdGetpos o) s = .next t →
      bitPosition o t = bitPosition o s ∧ (t.status = 0 → t.res = bitPosition o s))

/-- R161(e): on an open seekable reference device used exclusively, of less than 2^61 bytes, all three commands
complete and `EOS` returns 1 exactly when `GETPOS` is at least `LEN`. -/
def Obligations.EosExactlyAtTheEnd : Prop :=
  ∀ (o : BitOrder) (s : State) (m : MemStream), (s.reader o).att = true → s.port (readPort o) = .memStream m →
    m.closed = false → m.seekable = true → LookaheadOk (s.reader o) (.memStream m) →
    m.pos < 2 ^ 61 → m.data.length < 2 ^ 61 →
    ∃ e g l : State, exec (rdEos o) s = .next e ∧ exec (rdGetpos o) s = .next g ∧ exec (rdLen o) s = .next l ∧
      e.status = 0 ∧ g.status = 0 ∧ l.status = 0 ∧ (e.res = 1 ↔ l.res.toNat ≤ g.res.toNat) ∧ (e.res = 1 ∨ e.res = 0)

/-! ### Writers -/

/-- R38, R183, R192, R285: `OPEN` completes in every state and constructs the writer; pending bits are dropped and no
port transaction is made. -/
def Obligations.WriterOpenConstructs : Prop :=
  encode .wmOpen = 0x30#8 ∧ encode .wlOpen = 0x50#8 ∧
  ∀ (o : BitOrder) (s : State),
    exec (wrOpen o) s = .next { s.setWriter o { att := true, buf := 0, cur := 0 } with status := 0 }

/-- R181, R184, R193, R201: `BIT` of an open writer with `cur` at most 7. `b` is the buffered byte with the bit at the
cursor's place set to `ARG0[0]`; the eighth bit emits it, and a failed emission leaves it whole at `cur` = 8. -/
def Obligations.WriterBitCommand : Prop :=
  encode .wmBit = 0x31#8 ∧ encode .wlBit = 0x51#8 ∧
  ∀ (o : BitOrder) (s : State) (b : Byte),
    let u := s.writer o
    let p := writePort o
    let place : Nat := match o with | .msb => 7 - u.cur.val | .lsb => u.cur.val
    u.att = true → (∀ j, j < 8 → b.getLsbD j = if j = place then s.arg0.getLsbD 0 else u.buf.getLsbD j) →
      (u.cur.val < 7 →
        exec (wrBit o) s = .next { s.setWriter o { u with buf := b, cur := u.cur + 1 } with status := 0 }) ∧
      (u.cur.val = 7 →
        (∀ d, (s.port p).snkWrite b = some (.ok, d) →
          exec (wrBit o) s = .next { (s.setPort p d).setWriter o { u with buf := 0, cur := 0 } with status := 0 }) ∧
        (∀ a e d, (s.port p).snkWrite b = some (a, d) → a.error? = some e →
          exec (wrBit o) s = .next (raiseError e ((s.setPort p d).setWriter o { u with buf := b, cur := 8 }))) ∧
        ((s.port p).snkWrite b = none → exec (wrBit o) s = .fault (.portSilent p)))

/-- R66, R95, R181, R185 to R187, R194 to R196: `BITS32`, `BITS64` and `REP` of an open writer with a legal count whose
sink takes the whole bytes: the pending bits and the new ones are packed in order, whole bytes go to the sink and the
rest stays pending, zeros after it. A count of 0 writes nothing, also at `cur` = 8. -/
def Obligations.WriterBitsResult : Prop :=
  encode .wmBits32 = 0x32#8 ∧ encode .wlBits32 = 0x52#8 ∧ encode .wmBits64 = 0x33#8 ∧ encode .wlBits64 = 0x53#8 ∧
  encode .wmRep = 0x34#8 ∧ encode .wlRep = 0x54#8 ∧
  ∀ (o : BitOrder) (s : State) (n : Nat),
    let u := s.writer o
    let after : List Bool → Device → State := fun bits d =>
      let all := pendingBits o u ++ bits
      { (s.setPort (writePort o) d).setWriter o
          { att := true, buf := byteOfBits o (all.drop (8 * (all.length / 8))), cur := Fin.ofNat 9 (all.length % 8) }
        with status := 0 }
    let sent : List Bool → List Byte := fun bits =>
      let all := pendingBits o u ++ bits
      packBytes o (all.length / 8) all
    u.att = true → s.arg1.toInt = n →
      (n = 0 →
        exec (wrBits32 o) s = .next { s with status := 0 } ∧ exec (wrBits64 o) s = .next { s with status := 0 } ∧
        exec (wrRep o) s = .next { s with status := 0 }) ∧
      (WriterOk o u → u.cur.val < 8 → ∀ d,
        (n ≤ 31 → pushBytes (sent (fieldBits s.arg0 n)) (s.port (writePort o)) = some d →
          exec (wrBits32 o) s = .next (after (fieldBits s.arg0 n) d)) ∧
        (n ≤ 63 → pushBytes (sent (fieldBits s.arg0 n)) (s.port (writePort o)) = some d →
          exec (wrBits64 o) s = .next (after (fieldBits s.arg0 n) d)) ∧
        (pushBytes (sent (List.replicate n (s.arg0.getLsbD 0))) (s.port (writePort o)) = some d →
          exec (wrRep o) s = .next (after (List.replicate n (s.arg0.getLsbD 0)) d)))

/-- R185 to R187, R194 to R196, R201, R257: when the sink refuses the k-th whole byte, the bytes before it stay written,
that byte stays buffered whole at `cur` = 8, the later bits are not written, and the command ends with the error. -/
def Obligations.WriterBitsSinkFailure : Prop :=
  ∀ (o : BitOrder) (s : State) (n k : Nat) (bits : List Bool) (b : Byte) (d d2 : Device) (a : SnkAnswer)
    (e : ErrorKind),
    let u := s.writer o
    let all := pendingBits o u ++ bits
    let sent := packBytes o (all.length / 8) all
    u.att = true → WriterOk o u → u.cur.val < 8 → s.arg1.toInt = n → sent[k]? = some b →
    pushBytes (sent.take k) (s.port (writePort o)) = some d → d.snkWrite b = some (a, d2) → a.error? = some e →
    let t : State := raiseError e ((s.setPort (writePort o) d2).setWriter o { att := true, buf := b, cur := 8 })
    (n ≤ 31 → bits = fieldBits s.arg0 n → exec (wrBits32 o) s = .next t) ∧
    (n ≤ 63 → bits = fieldBits s.arg0 n → exec (wrBits64 o) s = .next t) ∧
    (bits = List.replicate n (s.arg0.getLsbD 0) → exec (wrRep o) s = .next t)

/-- R204: `BITS32` and `BITS64` do what successive `BIT` commands with the field's bits do, highest first, and `REP` what
n `BIT` commands with its bit do; also when the sink fails part way. The cases at `cur` = 8 with a non-zero
count, which R201 leaves open, rest on THE MODEL'S CHOICE of entry 5; so the statement is derived, not R204 alone. -/
def Obligations.WriterBitsAreBitByBit : Prop :=
  ∀ (o : BitOrder) (s : State) (n : Nat), (s.writer o).att = true → s.arg1.toInt = n →
    (n ≤ 31 → exec (wrBits32 o) s = bitByBitWrite o (fieldBits s.arg0 n) s) ∧
    (n ≤ 63 → exec (wrBits64 o) s = bitByBitWrite o (fieldBits s.arg0 n) s) ∧
    exec (wrRep o) s = bitByBitWrite o (List.replicate n (s.arg0.getLsbD 0)) s

/-- R188, R189, R197, R198, R261: `GETPOS` and `LEN` of an open writer, pending bits counted, for every answer. -/
def Obligations.WriterGetposLen : Prop :=
  encode .wmGetpos = 0x35#8 ∧ encode .wlGetpos = 0x55#8 ∧ encode .wmLen = 0x36#8 ∧ encode .wlLen = 0x56#8 ∧
  ∀ (o : BitOrder) (s : State),
    let u := s.writer o
    let p := writePort o
    u.att = true →
      (∀ v d, (s.port p).getPos = some (.value v, d) →
        exec (wrGetpos o) s = .next { s.setPort p d with
          status := 0, res := BitVec.ofNat 64 (8 * v.toNat + u.cur.val) }) ∧
      (∀ d, (s.port p).getPos = some (.notSeekable, d) →
        exec (wrGetpos o) s = .next (raiseError .notSupported (s.setPort p d))) ∧
      (∀ v d, (s.port p).getLen = some (.value v, d) →
        exec (wrLen o) s = .next { s.setPort p d with
          status := 0, res := BitVec.ofNat 64 (8 * v.toNat + u.cur.val) }) ∧
      (∀ d, (s.port p).getLen = some (.notSeekable, d) →
        exec (wrLen o) s = .next (raiseError .notSupported (s.setPort p d)))

/-- R182, R190, R199: `FLUSH` of an open writer, at a boundary and with pending bits, for every answer of the sink. The
device is not closed, and a failed emission leaves the writer open with its bits. -/
def Obligations.WriterFlushCommand : Prop :=
  encode .wmFlush = 0x37#8 ∧ encode .wlFlush = 0x57#8 ∧
  ∀ (o : BitOrder) (s : State),
    let u := s.writer o
    let p := writePort o
    u.att = true →
      (u.cur.val = 0 → exec (wrFlush o) s = .next { s.setWriter o { u with att := false } with status := 0 }) ∧
      (0 < u.cur.val →
        (∀ d, (s.port p).snkWrite u.buf = some (.ok, d) → exec (wrFlush o) s =
          .next { (s.setPort p d).setWriter o { att := false, buf := 0, cur := 0 } with status := 0 }) ∧
        (∀ a e d, (s.port p).snkWrite u.buf = some (a, d) → a.error? = some e →
          exec (wrFlush o) s = .next (raiseError e (s.setPort p d))) ∧
        ((s.port p).snkWrite u.buf = none → exec (wrFlush o) s = .fault (.portSilent p)))

/-- R58, R182, R191, R200: `CLOSE` of an open writer flushes as `FLUSH` does and then closes the device; a failed
emission leaves the writer open and the device not closed. That a close is always answered is deduced (entry 20). -/
def Obligations.WriterCloseCommand : Prop :=
  encode .wmClose = 0x38#8 ∧ encode .wlClose = 0x58#8 ∧
  ∀ (o : BitOrder) (s : State),
    let u := s.writer o
    let p := writePort o
    u.att = true →
      (u.cur.val = 0 → exec (wrClose o) s =
        .next { (s.setPort p (s.port p).close).setWriter o { u with att := false } with status := 0 }) ∧
      (0 < u.cur.val →
        (∀ d, (s.port p).snkWrite u.buf = some (.ok, d) → exec (wrClose o) s =
          .next { (s.setPort p d.close).setWriter o { att := false, buf := 0, cur := 0 } with status := 0 }) ∧
        (∀ a e d, (s.port p).snkWrite u.buf = some (a, d) → a.error? = some e →
          exec (wrClose o) s = .next (raiseError e (s.setPort p d))) ∧
        ((s.port p).snkWrite u.buf = none → exec (wrClose o) s = .fault (.portSilent p)))

/-- THE MODEL'S CHOICE (entry 5; U6 of spec/93 allows it, R201 leaves it unspecified): `BIT` of an open writer left at
`cur` = 8 by a failed emission retries the emission first; if the sink refuses again the command ends with that error
and the record unchanged; if it takes the byte, the bit is the first of a new byte. -/
def Obligations.WriterRetriesTheUnsentByte : Prop :=
  ∀ (o : BitOrder) (s : State),
    let u := s.writer o
    let p := writePort o
    u.att = true → u.cur.val = 8 →
      (∀ a e d, (s.port p).snkWrite u.buf = some (a, d) → a.error? = some e →
        exec (wrBit o) s = .next (raiseError e (s.setPort p d))) ∧
      (∀ d, (s.port p).snkWrite u.buf = some (.ok, d) → exec (wrBit o) s =
        .next { (s.setPort p d).setWriter o { u with buf := byteOfBits o [s.arg0.getLsbD 0], cur := 1 } with
          status := 0 })

/-- R202: whatever commands write a sequence of N bits into a fresh writer on an empty sink, they all succeed, and after
`FLUSH` the sink holds the N bits in ceil(N/8) bytes: a fresh reader of the same ordering returns them, by whatever
commands, then the padding's zero bits, then `EOS` = 1. -/
def Obligations.BitStreamRoundTrip : Prop :=
  ∀ (o : BitOrder) (cs : List WriteCmd) (s : State) (sk : Bool),
    s.writer o = { att := true, buf := 0, cur := 0 } → s.port (writePort o) = streamOf [] sk →
    let bits := cs.flatMap WriteCmd.bits
    ∃ (t t2 : State) (data : List Byte),
      writeAll o cs s = some t ∧ exec (wrFlush o) t = .next t2 ∧ t2.status = 0 ∧
      t2.port (writePort o) =
        .memStream { data := data, pos := data.length, seekable := sk, cap := none, closed := false } ∧
      data.length = (bits.length + 7) / 8 ∧
      ∀ (rs : List ReadCmd) (r : State) (sk' : Bool), r.reader o = { att := true, buf := 0, cur := 8 } →
        r.port (readPort o) = streamOf data sk' → (rs.map ReadCmd.count).sum = 8 * data.length →
        ∃ r' r2 : State,
          readAll o rs r = some (bits ++ List.replicate (8 * data.length - bits.length) false, r') ∧
          exec (rdEos o) r' = .next r2 ∧ r2.status = 0 ∧ r2.res = 1

/-- R203: the same bits written by `WM` and by `WL` and flushed give byte sequences of which each is the byte-wise
bit-reversal of the other, so they are equal exactly when every byte is its own reversal. -/
def Obligations.CrossOrderingReversesBytes : Prop :=
  ∀ (cm cl : List WriteCmd) (sm sl tm tl um ul : State) (skm skl : Bool) (dm dl : MemStream),
    cm.flatMap WriteCmd.bits = cl.flatMap WriteCmd.bits →
    sm.wm = { att := true, buf := 0, cur := 0 } → sl.wl = { att := true, buf := 0, cur := 0 } →
    sm.port .p3 = streamOf [] skm → sl.port .p5 = streamOf [] skl →
    writeAll .msb cm sm = some tm → writeAll .lsb cl sl = some tl →
    exec .wmFlush tm = .next um → exec .wlFlush tl = .next ul →
    um.port .p3 = .memStream dm → ul.port .p5 = .memStream dl →
    dl.data = dm.data.map bitReverse ∧ (dm.data = dl.data ↔ ∀ b ∈ dm.data, bitReverse b = b)

/-! ### Endian units -/

/-- R221, R222, R225, R228, R232: `SWAPn` completes in every state: byte j of the result is byte m-1-j of the operand,
the bits above are zero, and the closed formulas of R232 give the same. -/
def Obligations.SwapReversesBytes : Prop :=
  encode .swap16 = 0x60#8 ∧ encode .swap32 = 0x70#8 ∧ encode .swap64 = 0x80#8 ∧
  ∀ s : State,
    let v := s.arg0
    let rev32 : Nat → Nat := fun x =>
      ((x <<< 24) &&& 0xFF000000) ||| ((x <<< 8) &&& 0x00FF0000) ||| ((x >>> 8) &&& 0x0000FF00) ||| (x >>> 24)
    ∃ r16 r32 r64 : Word64,
      exec .swap16 s = .next { s with status := 0, res := r16 } ∧
      exec .swap32 s = .next { s with status := 0, res := r32 } ∧
      exec .swap64 s = .next { s with status := 0, res := r64 } ∧
      (∀ j, j < 2 → r16.extractLsb' (8 * j) 8 = v.extractLsb' (8 * (1 - j)) 8) ∧ r16.toNat < 2 ^ 16 ∧
      (∀ j, j < 4 → r32.extractLsb' (8 * j) 8 = v.extractLsb' (8 * (3 - j)) 8) ∧ r32.toNat < 2 ^ 32 ∧
      (∀ j, j < 8 → r64.extractLsb' (8 * j) 8 = v.extractLsb' (8 * (7 - j)) 8) ∧
      r16.toNat = (((v.toNat % 2 ^ 16) <<< 8) ||| ((v.toNat % 2 ^ 16) >>> 8)) &&& 0xFFFF ∧
      r32.toNat = rev32 (v.toNat % 2 ^ 32) ∧
      r64.toNat = (rev32 (v.toNat % 2 ^ 32) <<< 32) ||| rev32 (v.toNat >>> 32)

/-- R223, R226, R229: `TOBEn` completes in every state with a canonical `BUF`: the operand's bytes from `BUF[0]`, most
significant first, `BLEN` their number, `RES` and every other byte of `BUF` as they were. -/
def Obligations.TobeStoresBigEndian : Prop :=
  encode .tobe16 = 0x61#8 ∧ encode .tobe32 = 0x71#8 ∧ encode .tobe64 = 0x81#8 ∧
  ∀ (i : Instr) (m : Nat) (s : State), (i, m) ∈ [(Instr.tobe16, 2), (.tobe32, 4), (.tobe64, 8)] →
    Memory.wf s.buf →
    ∃ b : Memory,
      exec i s = .next { s with status := 0, buf := b, blen := BitVec.ofNat 8 m } ∧
      (∀ j, j < m → Memory.read b j = s.arg0.extractLsb' (8 * (m - 1 - j)) 8) ∧
      ∀ a, m ≤ a → Memory.read b a = Memory.read s.buf a

/-- R224, R227, R230, R256: `FROMBEn`. A negative offset or too few bytes before `BLEN` ends it with `OutOfRange`, nothing
read; otherwise, `BLEN` being legal, it completes with the big-endian value, and `BUF` and `BLEN` stay. -/
def Obligations.FrombeReadsBigEndian : Prop :=
  encode .frombe16 = 0x62#8 ∧ encode .frombe32 = 0x72#8 ∧ encode .frombe64 = 0x82#8 ∧
  ∀ (i : Instr) (m : Nat) (s : State), (i, m) ∈ [(Instr.frombe16, 2), (.frombe32, 4), (.frombe64, 8)] →
    ((s.arg1.toInt < 0 ∨ s.blen.toNat < s.arg1.toInt + m) → exec i s = .next (raiseError .outOfRange s)) ∧
    (s.blen.toNat ≤ s.bufBytes → ∀ off : Nat, s.arg1.toInt = off → off + m ≤ s.blen.toNat →
      ∃ r : Word64,
        exec i s = .next { s with status := 0, res := r } ∧
        (∀ j, j < m → r.extractLsb' (8 * j) 8 = Memory.read s.buf (off + (m - 1 - j))) ∧ r.toNat < 2 ^ (8 * m))

/-- R231: `FROMBEn` at offset 0 after `TOBEn` returns the operand, and `SWAPn` of `SWAPn` is the operand, at each width;
the bytes `TOBEn` writes, read as a little-endian number, are `Rev_n` (R221) of the operand, which is what `SWAPn`
returns. -/
def Obligations.EndianLaws : Prop :=
  ∀ (sw tobe frombe : Instr) (n : Nat) (s : State),
    (sw, tobe, frombe, n) ∈
      [(Instr.swap16, Instr.tobe16, Instr.frombe16, 16), (.swap32, .tobe32, .frombe32, 32),
       (.swap64, .tobe64, .frombe64, 64)] →
    Memory.wf s.buf →
    ∃ t u w x : State,
      exec tobe s = .next t ∧ exec frombe { t with arg1 := 0 } = .next u ∧ u.status = 0 ∧
      u.res.toNat = s.arg0.toNat % 2 ^ n ∧
      exec sw s = .next w ∧ exec sw { w with arg0 := w.res } = .next x ∧ x.res.toNat = s.arg0.toNat % 2 ^ n ∧
      ∀ j, j < n / 8 → Memory.read t.buf j = s.arg0.extractLsb' (8 * (n / 8 - 1 - j)) 8 ∧
        Memory.read t.buf j = w.res.extractLsb' (8 * j) 8

/-- R236, R237: the reference functions without a command. `SwapGroups` reverses each group, and has no result for a group
size below 2 or a length that is no multiple of it (U9); `HostByteOrder` over eight distinct bytes tells the two orders
apart. -/
def Obligations.ReferenceFunctionsOfEndian : Prop :=
  (∀ (bs : List Byte) (g : Nat), 2 ≤ g → bs.length % g = 0 →
    ∃ out, swapGroups bs g = some out ∧ out.length = bs.length ∧
      ∀ k j, k < bs.length / g → j < g → out[k * g + j]? = bs[k * g + (g - 1 - j)]?) ∧
  (∀ (bs : List Byte) (g : Nat), (g < 2 ∨ bs.length % g ≠ 0) → swapGroups bs g = none) ∧
  ∀ (bs : List Byte) (x : Word64), bs.length = 8 → bs.Nodup →
    (hostByteOrder bs x = .littleEndian ↔ ∀ j b, bs[j]? = some b → x.extractLsb' (8 * j) 8 = b) ∧
    (hostByteOrder bs x = .bigEndian ↔ ∀ j b, bs[j]? = some b → x.extractLsb' (8 * (7 - j)) 8 = b)

/-- R297: the port transactions of successful commands, counted on a free device (entry 7): `VENC` makes as many as it writes
bytes, `VDEC` 1 to 10, a reader's `BIT` one at a boundary and none inside a byte, `BITS` with count n those of
`pullsNeeded`, a writer's `BITS` one for each whole byte. -/
def Obligations.TransactionsCounted : Prop :=
  ∀ (s t : State) (o : BitOrder) (n : Nat) (d e : OracleDevice), t.status = 0 →
    (exec .venc s = .next t → s.port .p0 = .oracle d → t.port .p0 = .oracle e →
      d.left = e.left + varintLen s.arg0) ∧
    (exec .vdec s = .next t → s.port .p1 = .oracle d → t.port .p1 = .oracle e →
      e.left + 1 ≤ d.left ∧ d.left ≤ e.left + 10) ∧
    (exec (rdBit o) s = .next t → s.port (readPort o) = .oracle d → t.port (readPort o) = .oracle e →
      d.left = e.left + if (s.reader o).cur.val = 8 then 1 else 0) ∧
    (s.arg1.toInt = n → (exec (rdBits32 o) s = .next t ∨ exec (rdBits64 o) s = .next t) →
      s.port (readPort o) = .oracle d → t.port (readPort o) = .oracle e →
      d.left = e.left + pullsNeeded (s.reader o).cur n) ∧
    (s.arg1.toInt = n → (s.writer o).cur.val < 8 →
      (exec (wrBits32 o) s = .next t ∨ exec (wrBits64 o) s = .next t ∨ exec (wrRep o) s = .next t) →
      s.port (writePort o) = .oracle d → t.port (writePort o) = .oracle e →
      d.left = e.left + ((s.writer o).cur.val + n) / 8)
end

