-- ==== Sys2Proof/Laws/State.lean ====
section
/-! SUPPORT. One lemma for each field of State under each named update, and for each read through `port`, `reader` and
`writer`, so that no proof unfolds an update. -/

namespace Sys2Proof.Machine

@[simp] theorem setPort_status (s : State) (p : Port) (d : Device) : (s.setPort p d).status = s.status := by cases p <;> rfl
@[simp] theorem setPort_arg0 (s : State) (p : Port) (d : Device) : (s.setPort p d).arg0 = s.arg0 := by cases p <;> rfl
@[simp] theorem setPort_arg1 (s : State) (p : Port) (d : Device) : (s.setPort p d).arg1 = s.arg1 := by cases p <;> rfl
@[simp] theorem setPort_res (s : State) (p : Port) (d : Device) : (s.setPort p d).res = s.res := by cases p <;> rfl
@[simp] theorem setPort_blen (s : State) (p : Port) (d : Device) : (s.setPort p d).blen = s.blen := by cases p <;> rfl
@[simp] theorem setPort_buf (s : State) (p : Port) (d : Device) : (s.setPort p d).buf = s.buf := by cases p <;> rfl
@[simp] theorem setPort_rm (s : State) (p : Port) (d : Device) : (s.setPort p d).rm = s.rm := by cases p <;> rfl
@[simp] theorem setPort_wm (s : State) (p : Port) (d : Device) : (s.setPort p d).wm = s.wm := by cases p <;> rfl
@[simp] theorem setPort_rl (s : State) (p : Port) (d : Device) : (s.setPort p d).rl = s.rl := by cases p <;> rfl
@[simp] theorem setPort_wl (s : State) (p : Port) (d : Device) : (s.setPort p d).wl = s.wl := by cases p <;> rfl
@[simp] theorem setPort_bufExtra (s : State) (p : Port) (d : Device) : (s.setPort p d).bufExtra = s.bufExtra := by cases p <;> rfl
@[simp] theorem setPort_script (s : State) (p : Port) (d : Device) : (s.setPort p d).script = s.script := by cases p <;> rfl
@[simp] theorem setPort_txIndex (s : State) (p : Port) (d : Device) : (s.setPort p d).txIndex = s.txIndex := by cases p <;> rfl
@[simp] theorem setPort_rdata (s : State) (p : Port) (d : Device) : (s.setPort p d).rdata = s.rdata := by cases p <;> rfl
@[simp] theorem setPort_draws (s : State) (p : Port) (d : Device) : (s.setPort p d).draws = s.draws := by cases p <;> rfl
@[simp] theorem setReader_status (s : State) (o : BitOrder) (u : BitUnit) : (s.setReader o u).status = s.status := by cases o <;> rfl
@[simp] theorem setReader_arg0 (s : State) (o : BitOrder) (u : BitUnit) : (s.setReader o u).arg0 = s.arg0 := by cases o <;> rfl
@[simp] theorem setReader_arg1 (s : State) (o : BitOrder) (u : BitUnit) : (s.setReader o u).arg1 = s.arg1 := by cases o <;> rfl
@[simp] theorem setReader_res (s : State) (o : BitOrder) (u : BitUnit) : (s.setReader o u).res = s.res := by cases o <;> rfl
@[simp] theorem setReader_blen (s : State) (o : BitOrder) (u : BitUnit) : (s.setReader o u).blen = s.blen := by cases o <;> rfl
@[simp] theorem setReader_buf (s : State) (o : BitOrder) (u : BitUnit) : (s.setReader o u).buf = s.buf := by cases o <;> rfl
@[simp] theorem setReader_wm (s : State) (o : BitOrder) (u : BitUnit) : (s.setReader o u).wm = s.wm := by cases o <;> rfl
@[simp] theorem setReader_wl (s : State) (o : BitOrder) (u : BitUnit) : (s.setReader o u).wl = s.wl := by cases o <;> rfl
@[simp] theorem setReader_bufExtra (s : State) (o : BitOrder) (u : BitUnit) : (s.setReader o u).bufExtra = s.bufExtra := by cases o <;> rfl
@[simp] theorem setReader_ports (s : State) (o : BitOrder) (u : BitUnit) : (s.setReader o u).ports = s.ports := by cases o <;> rfl
@[simp] theorem setReader_script (s : State) (o : BitOrder) (u : BitUnit) : (s.setReader o u).script = s.script := by cases o <;> rfl
@[simp] theorem setReader_txIndex (s : State) (o : BitOrder) (u : BitUnit) : (s.setReader o u).txIndex = s.txIndex := by cases o <;> rfl
@[simp] theorem setReader_rdata (s : State) (o : BitOrder) (u : BitUnit) : (s.setReader o u).rdata = s.rdata := by cases o <;> rfl
@[simp] theorem setReader_draws (s : State) (o : BitOrder) (u : BitUnit) : (s.setReader o u).draws = s.draws := by cases o <;> rfl
@[simp] theorem setWriter_status (s : State) (o : BitOrder) (u : BitUnit) : (s.setWriter o u).status = s.status := by cases o <;> rfl
@[simp] theorem setWriter_arg0 (s : State) (o : BitOrder) (u : BitUnit) : (s.setWriter o u).arg0 = s.arg0 := by cases o <;> rfl
@[simp] theorem setWriter_arg1 (s : State) (o : BitOrder) (u : BitUnit) : (s.setWriter o u).arg1 = s.arg1 := by cases o <;> rfl
@[simp] theorem setWriter_res (s : State) (o : BitOrder) (u : BitUnit) : (s.setWriter o u).res = s.res := by cases o <;> rfl
@[simp] theorem setWriter_blen (s : State) (o : BitOrder) (u : BitUnit) : (s.setWriter o u).blen = s.blen := by cases o <;> rfl
@[simp] theorem setWriter_buf (s : State) (o : BitOrder) (u : BitUnit) : (s.setWriter o u).buf = s.buf := by cases o <;> rfl
@[simp] theorem setWriter_rm (s : State) (o : BitOrder) (u : BitUnit) : (s.setWriter o u).rm = s.rm := by cases o <;> rfl
@[simp] theorem setWriter_rl (s : State) (o : BitOrder) (u : BitUnit) : (s.setWriter o u).rl = s.rl := by cases o <;> rfl
@[simp] theorem setWriter_bufExtra (s : State) (o : BitOrder) (u : BitUnit) : (s.setWriter o u).bufExtra = s.bufExtra := by cases o <;> rfl
@[simp] theorem setWriter_ports (s : State) (o : BitOrder) (u : BitUnit) : (s.setWriter o u).ports = s.ports := by cases o <;> rfl
@[simp] theorem setWriter_script (s : State) (o : BitOrder) (u : BitUnit) : (s.setWriter o u).script = s.script := by cases o <;> rfl
@[simp] theorem setWriter_txIndex (s : State) (o : BitOrder) (u : BitUnit) : (s.setWriter o u).txIndex = s.txIndex := by cases o <;> rfl
@[simp] theorem setWriter_rdata (s : State) (o : BitOrder) (u : BitUnit) : (s.setWriter o u).rdata = s.rdata := by cases o <;> rfl
@[simp] theorem setWriter_draws (s : State) (o : BitOrder) (u : BitUnit) : (s.setWriter o u).draws = s.draws := by cases o <;> rfl
@[simp] theorem succeed_arg0 (r : Option Word64) (s : State) : (succeed r s).arg0 = s.arg0 := by cases r <;> rfl
@[simp] theorem succeed_arg1 (r : Option Word64) (s : State) : (succeed r s).arg1 = s.arg1 := by cases r <;> rfl
@[simp] theorem succeed_blen (r : Option Word64) (s : State) : (succeed r s).blen = s.blen := by cases r <;> rfl
@[simp] theorem succeed_buf (r : Option Word64) (s : State) : (succeed r s).buf = s.buf := by cases r <;> rfl
@[simp] theorem succeed_rm (r : Option Word64) (s : State) : (succeed r s).rm = s.rm := by cases r <;> rfl
@[simp] theorem succeed_wm (r : Option Word64) (s : State) : (succeed r s).wm = s.wm := by cases r <;> rfl
@[simp] theorem succeed_rl (r : Option Word64) (s : State) : (succeed r s).rl = s.rl := by cases r <;> rfl
@[simp] theorem succeed_wl (r : Option Word64) (s : State) : (succeed r s).wl = s.wl := by cases r <;> rfl
@[simp] theorem succeed_bufExtra (r : Option Word64) (s : State) : (succeed r s).bufExtra = s.bufExtra := by cases r <;> rfl
@[simp] theorem succeed_ports (r : Option Word64) (s : State) : (succeed r s).ports = s.ports := by cases r <;> rfl
@[simp] theorem succeed_script (r : Option Word64) (s : State) : (succeed r s).script = s.script := by cases r <;> rfl
@[simp] theorem succeed_txIndex (r : Option Word64) (s : State) : (succeed r s).txIndex = s.txIndex := by cases r <;> rfl
@[simp] theorem succeed_rdata (r : Option Word64) (s : State) : (succeed r s).rdata = s.rdata := by cases r <;> rfl
@[simp] theorem succeed_draws (r : Option Word64) (s : State) : (succeed r s).draws = s.draws := by cases r <;> rfl
@[simp] theorem raiseError_arg0 (e : ErrorKind) (s : State) : (raiseError e s).arg0 = s.arg0 := rfl
@[simp] theorem raiseError_arg1 (e : ErrorKind) (s : State) : (raiseError e s).arg1 = s.arg1 := rfl
@[simp] theorem raiseError_blen (e : ErrorKind) (s : State) : (raiseError e s).blen = s.blen := rfl
@[simp] theorem raiseError_buf (e : ErrorKind) (s : State) : (raiseError e s).buf = s.buf := rfl
@[simp] theorem raiseError_rm (e : ErrorKind) (s : State) : (raiseError e s).rm = s.rm := rfl
@[simp] theorem raiseError_wm (e : ErrorKind) (s : State) : (raiseError e s).wm = s.wm := rfl
@[simp] theorem raiseError_rl (e : ErrorKind) (s : State) : (raiseError e s).rl = s.rl := rfl
@[simp] theorem raiseError_wl (e : ErrorKind) (s : State) : (raiseError e s).wl = s.wl := rfl
@[simp] theorem raiseError_bufExtra (e : ErrorKind) (s : State) : (raiseError e s).bufExtra = s.bufExtra := rfl
@[simp] theorem raiseError_ports (e : ErrorKind) (s : State) : (raiseError e s).ports = s.ports := rfl
@[simp] theorem raiseError_script (e : ErrorKind) (s : State) : (raiseError e s).script = s.script := rfl
@[simp] theorem raiseError_txIndex (e : ErrorKind) (s : State) : (raiseError e s).txIndex = s.txIndex := rfl
@[simp] theorem raiseError_rdata (e : ErrorKind) (s : State) : (raiseError e s).rdata = s.rdata := rfl
@[simp] theorem takeEvent_status (r : List Event) (s : State) : (takeEvent r s).status = s.status := rfl
@[simp] theorem takeEvent_arg0 (r : List Event) (s : State) : (takeEvent r s).arg0 = s.arg0 := rfl
@[simp] theorem takeEvent_arg1 (r : List Event) (s : State) : (takeEvent r s).arg1 = s.arg1 := rfl
@[simp] theorem takeEvent_res (r : List Event) (s : State) : (takeEvent r s).res = s.res := rfl
@[simp] theorem takeEvent_blen (r : List Event) (s : State) : (takeEvent r s).blen = s.blen := rfl
@[simp] theorem takeEvent_buf (r : List Event) (s : State) : (takeEvent r s).buf = s.buf := rfl
@[simp] theorem takeEvent_rm (r : List Event) (s : State) : (takeEvent r s).rm = s.rm := rfl
@[simp] theorem takeEvent_wm (r : List Event) (s : State) : (takeEvent r s).wm = s.wm := rfl
@[simp] theorem takeEvent_rl (r : List Event) (s : State) : (takeEvent r s).rl = s.rl := rfl
@[simp] theorem takeEvent_wl (r : List Event) (s : State) : (takeEvent r s).wl = s.wl := rfl
@[simp] theorem takeEvent_bufExtra (r : List Event) (s : State) : (takeEvent r s).bufExtra = s.bufExtra := rfl
@[simp] theorem takeEvent_ports (r : List Event) (s : State) : (takeEvent r s).ports = s.ports := rfl
@[simp] theorem takeEvent_rdata (r : List Event) (s : State) : (takeEvent r s).rdata = s.rdata := rfl
@[simp] theorem takeEvent_draws (r : List Event) (s : State) : (takeEvent r s).draws = s.draws := rfl
@[simp] theorem withFetchWord_status (s : State) (n w : Nat) : (s.withFetchWord n w).status = s.status := rfl
@[simp] theorem withFetchWord_arg0 (s : State) (n w : Nat) : (s.withFetchWord n w).arg0 = s.arg0 := rfl
@[simp] theorem withFetchWord_arg1 (s : State) (n w : Nat) : (s.withFetchWord n w).arg1 = s.arg1 := rfl
@[simp] theorem withFetchWord_res (s : State) (n w : Nat) : (s.withFetchWord n w).res = s.res := rfl
@[simp] theorem withFetchWord_blen (s : State) (n w : Nat) : (s.withFetchWord n w).blen = s.blen := rfl
@[simp] theorem withFetchWord_buf (s : State) (n w : Nat) : (s.withFetchWord n w).buf = s.buf := rfl
@[simp] theorem withFetchWord_rm (s : State) (n w : Nat) : (s.withFetchWord n w).rm = s.rm := rfl
@[simp] theorem withFetchWord_wm (s : State) (n w : Nat) : (s.withFetchWord n w).wm = s.wm := rfl
@[simp] theorem withFetchWord_rl (s : State) (n w : Nat) : (s.withFetchWord n w).rl = s.rl := rfl
@[simp] theorem withFetchWord_wl (s : State) (n w : Nat) : (s.withFetchWord n w).wl = s.wl := rfl
@[simp] theorem withFetchWord_bufExtra (s : State) (n w : Nat) : (s.withFetchWord n w).bufExtra = s.bufExtra := rfl
@[simp] theorem withFetchWord_ports (s : State) (n w : Nat) : (s.withFetchWord n w).ports = s.ports := rfl
@[simp] theorem withFetchWord_txIndex (s : State) (n w : Nat) : (s.withFetchWord n w).txIndex = s.txIndex := rfl
@[simp] theorem withFetchWord_rdata (s : State) (n w : Nat) : (s.withFetchWord n w).rdata = s.rdata := rfl
@[simp] theorem withFetchWord_draws (s : State) (n w : Nat) : (s.withFetchWord n w).draws = s.draws := rfl
@[simp] theorem blockReset_bufExtra (s : State) : (blockReset s).bufExtra = s.bufExtra := rfl
@[simp] theorem blockReset_ports (s : State) : (blockReset s).ports = s.ports := rfl
@[simp] theorem blockReset_script (s : State) : (blockReset s).script = s.script := rfl
@[simp] theorem blockReset_txIndex (s : State) : (blockReset s).txIndex = s.txIndex := rfl
@[simp] theorem blockReset_rdata (s : State) : (blockReset s).rdata = s.rdata := rfl
@[simp] theorem portClose_status (p : Port) (s : State) : (portClose p s).status = s.status := by simp [portClose]
@[simp] theorem portClose_arg0 (p : Port) (s : State) : (portClose p s).arg0 = s.arg0 := by simp [portClose]
@[simp] theorem portClose_arg1 (p : Port) (s : State) : (portClose p s).arg1 = s.arg1 := by simp [portClose]
@[simp] theorem portClose_res (p : Port) (s : State) : (portClose p s).res = s.res := by simp [portClose]
@[simp] theorem portClose_blen (p : Port) (s : State) : (portClose p s).blen = s.blen := by simp [portClose]
@[simp] theorem portClose_buf (p : Port) (s : State) : (portClose p s).buf = s.buf := by simp [portClose]
@[simp] theorem portClose_rm (p : Port) (s : State) : (portClose p s).rm = s.rm := by simp [portClose]
@[simp] theorem portClose_wm (p : Port) (s : State) : (portClose p s).wm = s.wm := by simp [portClose]
@[simp] theorem portClose_rl (p : Port) (s : State) : (portClose p s).rl = s.rl := by simp [portClose]
@[simp] theorem portClose_wl (p : Port) (s : State) : (portClose p s).wl = s.wl := by simp [portClose]
@[simp] theorem portClose_bufExtra (p : Port) (s : State) : (portClose p s).bufExtra = s.bufExtra := by simp [portClose]
@[simp] theorem portClose_script (p : Port) (s : State) : (portClose p s).script = s.script := by simp [portClose]
@[simp] theorem portClose_txIndex (p : Port) (s : State) : (portClose p s).txIndex = s.txIndex := by simp [portClose]
@[simp] theorem portClose_rdata (p : Port) (s : State) : (portClose p s).rdata = s.rdata := by simp [portClose]
@[simp] theorem portClose_draws (p : Port) (s : State) : (portClose p s).draws = s.draws := by simp [portClose]

@[simp] theorem succeed_status (r : Option Word64) (s : State) : (succeed r s).status = 0 := by cases r <;> rfl
@[simp] theorem succeed_some_res (v : Word64) (s : State) : (succeed (some v) s).res = v := rfl
@[simp] theorem succeed_none_res (s : State) : (succeed none s).res = s.res := rfl
@[simp] theorem raiseError_status (e : ErrorKind) (s : State) : (raiseError e s).status = errorCode e := rfl
@[simp] theorem raiseError_res (e : ErrorKind) (s : State) :
    (raiseError e s).res = Config.resAfterError s.draws := rfl
@[simp] theorem raiseError_draws (e : ErrorKind) (s : State) : (raiseError e s).draws = s.draws + 1 := rfl
@[simp] theorem takeEvent_script (r : List Event) (s : State) : (takeEvent r s).script = r := rfl
@[simp] theorem takeEvent_txIndex (r : List Event) (s : State) : (takeEvent r s).txIndex = s.txIndex + 1 := rfl
@[simp] theorem withFetchWord_script (s : State) (n w : Nat) :
    (s.withFetchWord n w).script = commandEvent n w :: s.script := rfl

@[simp] theorem port_setPort_same (s : State) (p : Port) (d : Device) : (s.setPort p d).port p = d := by
  cases p <;> rfl
theorem port_setPort_other (s : State) {p q : Port} (d : Device) (h : q ≠ p) :
    (s.setPort p d).port q = s.port q := by
  cases p <;> cases q <;> first | rfl | exact absurd rfl h
@[simp] theorem port_setReader (s : State) (o : BitOrder) (u : BitUnit) (p : Port) :
    (s.setReader o u).port p = s.port p := by cases o <;> cases p <;> rfl
@[simp] theorem port_setWriter (s : State) (o : BitOrder) (u : BitUnit) (p : Port) :
    (s.setWriter o u).port p = s.port p := by cases o <;> cases p <;> rfl
@[simp] theorem reader_setPort (s : State) (p : Port) (d : Device) (o : BitOrder) :
    (s.setPort p d).reader o = s.reader o := by cases o <;> cases p <;> rfl
@[simp] theorem writer_setPort (s : State) (p : Port) (d : Device) (o : BitOrder) :
    (s.setPort p d).writer o = s.writer o := by cases o <;> cases p <;> rfl
@[simp] theorem reader_setReader_same (s : State) (o : BitOrder) (u : BitUnit) :
    (s.setReader o u).reader o = u := by cases o <;> rfl
theorem reader_setReader_other (s : State) {o q : BitOrder} (u : BitUnit) (h : q ≠ o) :
    (s.setReader o u).reader q = s.reader q := by
  cases o <;> cases q <;> first | rfl | exact absurd rfl h
@[simp] theorem writer_setWriter_same (s : State) (o : BitOrder) (u : BitUnit) :
    (s.setWriter o u).writer o = u := by cases o <;> rfl
theorem writer_setWriter_other (s : State) {o q : BitOrder} (u : BitUnit) (h : q ≠ o) :
    (s.setWriter o u).writer q = s.writer q := by
  cases o <;> cases q <;> first | rfl | exact absurd rfl h
@[simp] theorem writer_setReader (s : State) (o q : BitOrder) (u : BitUnit) :
    (s.setReader o u).writer q = s.writer q := by cases o <;> cases q <;> rfl
@[simp] theorem reader_setWriter (s : State) (o q : BitOrder) (u : BitUnit) :
    (s.setWriter o u).reader q = s.reader q := by cases o <;> cases q <;> rfl
@[simp] theorem setPort_setPort (s : State) (p : Port) (d e : Device) :
    (s.setPort p d).setPort p e = s.setPort p e := by cases p <;> rfl
@[simp] theorem setPort_port (s : State) (p : Port) : s.setPort p (s.port p) = s := by cases p <;> rfl
@[simp] theorem setReader_setReader (s : State) (o : BitOrder) (u v : BitUnit) :
    (s.setReader o u).setReader o v = s.setReader o v := by cases o <;> rfl
@[simp] theorem setReader_reader (s : State) (o : BitOrder) : s.setReader o (s.reader o) = s := by cases o <;> rfl
@[simp] theorem setWriter_setWriter (s : State) (o : BitOrder) (u v : BitUnit) :
    (s.setWriter o u).setWriter o v = s.setWriter o v := by cases o <;> rfl
@[simp] theorem setWriter_writer (s : State) (o : BitOrder) : s.setWriter o (s.writer o) = s := by cases o <;> rfl
theorem setPort_setReader (s : State) (p : Port) (d : Device) (o : BitOrder) (u : BitUnit) :
    (s.setReader o u).setPort p d = (s.setPort p d).setReader o u := by cases o <;> cases p <;> rfl
theorem setPort_setWriter (s : State) (p : Port) (d : Device) (o : BitOrder) (u : BitUnit) :
    (s.setWriter o u).setPort p d = (s.setPort p d).setWriter o u := by cases o <;> cases p <;> rfl
theorem setPort_comm (s : State) {p q : Port} (d e : Device) (h : p ≠ q) :
    (s.setPort p d).setPort q e = (s.setPort q e).setPort p d := by
  cases p <;> cases q <;> first | rfl | exact absurd rfl h
@[simp] theorem setPort_bufBytes (s : State) (p : Port) (d : Device) : (s.setPort p d).bufBytes = s.bufBytes := by
  cases p <;> rfl
@[simp] theorem setReader_bufBytes (s : State) (o : BitOrder) (u : BitUnit) :
    (s.setReader o u).bufBytes = s.bufBytes := by cases o <;> rfl
@[simp] theorem setWriter_bufBytes (s : State) (o : BitOrder) (u : BitUnit) :
    (s.setWriter o u).bufBytes = s.bufBytes := by cases o <;> rfl

end Sys2Proof.Machine
end

