-- ==== Sys2Proof/Laws/Memory.lean ====
section
/-! SUPPORT. The byte buffer and the bytes a free device holds: a read after a write, and the canonical form kept by
every memory operation. -/

namespace Sys2Proof.Machine

/-! ### The bytes a free device holds -/

theorem heldAt_hold_same (l : List Host.Cell) (a : Nat) (b : Byte) : heldAt (hold l a b) a = some b := by
  induction l with
  | nil => simp [hold, heldAt]
  | cons c l ih =>
    obtain ⟨k, v⟩ := c
    simp only [hold]
    split
    · simp [heldAt]
    · split
      · simp [heldAt]
      · rw [heldAt, if_neg (by omega), ih]

theorem heldAt_hold_other (l : List Host.Cell) (a c : Nat) (b : Byte) (hne : c ≠ a) :
    heldAt (hold l a b) c = heldAt l c := by
  induction l with
  | nil => simp [hold, heldAt, hne.symm]
  | cons x l ih =>
    obtain ⟨k, v⟩ := x
    simp only [hold]
    split
    · simp [heldAt, hne.symm]
    · split
      · subst_vars; simp [heldAt, hne.symm]
      · simp only [heldAt, ih]

/-- The cells after a hold are the old ones or the held one. -/
theorem mem_hold {l : List Host.Cell} {a : Nat} {b : Byte} {c : Host.Cell} (h : c ∈ hold l a b) :
    c ∈ l ∨ c = (a, b) := by
  induction l with
  | nil => simpa [hold] using h
  | cons x l ih =>
    simp only [hold] at h
    split at h
    · simpa [or_comm] using h
    · split at h
      · rcases List.mem_cons.mp h with h | h <;> simp [h]
      · rcases List.mem_cons.mp h with rfl | h
        · simp
        · rcases ih h with h | h <;> simp [h]

/-- Holding a byte keeps the positions strictly rising. -/
theorem hold_rising (l : List Host.Cell) (a : Nat) (b : Byte) (h : l.Pairwise fun x y => x.1 < y.1) :
    (hold l a b).Pairwise fun x y => x.1 < y.1 := by
  induction l with
  | nil => simp [hold]
  | cons x l ih =>
    obtain ⟨h1, h2⟩ := List.pairwise_cons.mp h
    simp only [hold]
    split
    · refine List.pairwise_cons.mpr ⟨fun y hy => ?_, h⟩
      rcases List.mem_cons.mp hy with rfl | hy
      · assumption
      · have := h1 y hy; simp only at this ⊢; omega
    · split
      · subst_vars; exact List.pairwise_cons.mpr ⟨h1, h2⟩
      · refine List.pairwise_cons.mpr ⟨fun y hy => ?_, ih h2⟩
        rcases mem_hold hy with hy | rfl
        · exact h1 y hy
        · simp only; omega

/-! ### `BUF` -/

@[simp] theorem Memory.read_nil (a : Nat) : Memory.read [] a = unlistedByte := rfl

theorem Memory.read_cons (c : Host.Cell) (m : Memory) (a : Nat) :
    Memory.read (c :: m) a = if c.1 = a then c.2 else Memory.read m a := rfl

/-- An address below every listed one is not listed. -/
theorem Memory.read_below (m : Memory) (a : Nat) (h : ∀ c ∈ m, a < c.1) : Memory.read m a = unlistedByte := by
  induction m with
  | nil => rfl
  | cons c m ih =>
    have h1 := h c (List.mem_cons_self ..)
    rw [Memory.read_cons, if_neg (by omega), ih fun x hx => h x (List.mem_cons_of_mem _ hx)]

/-- A write's cells are the old ones or the written one. -/
theorem Memory.mem_write (m : Memory) (a : Nat) (b : Byte) (c : Host.Cell) (h : c ∈ Memory.write m a b) :
    c ∈ m ∨ (c = (a, b) ∧ b ≠ unlistedByte) := by
  induction m with
  | nil => simp only [Memory.write] at h; split at h <;> simp_all
  | cons x m ih =>
    obtain ⟨k, v⟩ := x
    simp only [Memory.write] at h
    split at h
    · split at h
      · exact .inl h
      · rcases List.mem_cons.mp h with rfl | h'
        · exact .inr ⟨rfl, ‹_›⟩
        · exact .inl h'
    · split at h
      · split at h
        · exact .inl (List.mem_cons_of_mem _ h)
        · rcases List.mem_cons.mp h with rfl | h'
          · exact .inr ⟨rfl, ‹_›⟩
          · exact .inl (List.mem_cons_of_mem _ h')
      · rcases List.mem_cons.mp h with rfl | h'
        · exact .inl (List.mem_cons_self ..)
        · rcases ih h' with h'' | h''
          · exact .inl (List.mem_cons_of_mem _ h'')
          · exact .inr h''

/-- A write keeps the canonical form. -/
theorem Memory.write_wf (m : Memory) (a : Nat) (b : Byte) (h : Memory.wf m) : Memory.wf (Memory.write m a b) := by
  refine ⟨?_, fun c hc => ?_⟩
  · obtain ⟨hp, -⟩ := h
    induction m with
    | nil => simp only [Memory.write]; split <;> simp
    | cons x m ih =>
      obtain ⟨k, v⟩ := x
      rw [List.pairwise_cons] at hp
      obtain ⟨h1, h2⟩ := hp
      simp only [Memory.write]
      split
      · split
        · exact List.pairwise_cons.mpr ⟨h1, h2⟩
        · refine List.pairwise_cons.mpr ⟨fun y hy => ?_, List.pairwise_cons.mpr ⟨h1, h2⟩⟩
          rcases List.mem_cons.mp hy with rfl | hy
          · assumption
          · have := h1 y hy; simp only at this ⊢; omega
      · split
        · subst_vars
          split
          · exact h2
          · exact List.pairwise_cons.mpr ⟨h1, h2⟩
        · refine List.pairwise_cons.mpr ⟨fun y hy => ?_, ih h2⟩
          rcases Memory.mem_write m a b y hy with hy | ⟨rfl, -⟩
          · exact h1 y hy
          · simp only; omega
  · rcases Memory.mem_write m a b c hc with hc | ⟨rfl, hb⟩
    · exact h.2 c hc
    · exact hb

theorem Memory.read_write_same (m : Memory) (a : Nat) (b : Byte) (h : Memory.wf m) :
    Memory.read (Memory.write m a b) a = b := by
  obtain ⟨hp, -⟩ := h
  induction m with
  | nil => simp only [Memory.write]; split <;> simp_all [Memory.read]
  | cons x m ih =>
    obtain ⟨k, v⟩ := x
    rw [List.pairwise_cons] at hp
    obtain ⟨h1, h2⟩ := hp
    simp only [Memory.write]
    split
    · split
      · subst_vars
        rw [Memory.read_cons, if_neg (by simp only; omega)]
        exact Memory.read_below m a fun c hc => by have := h1 c hc; simp only at this; omega
      · simp [Memory.read]
    · split
      · subst_vars
        split
        · subst_vars
          exact Memory.read_below m _ h1
        · simp [Memory.read]
      · rw [Memory.read_cons, if_neg (by simp only; omega), ih h2]

theorem Memory.read_write_other (m : Memory) (a c : Nat) (b : Byte) (hne : c ≠ a) :
    Memory.read (Memory.write m a b) c = Memory.read m c := by
  induction m with
  | nil =>
    simp only [Memory.write]
    split
    · rfl
    · simp [Memory.read, unlistedByte, Ne.symm hne]
  | cons x m ih =>
    obtain ⟨k, v⟩ := x
    simp only [Memory.write]
    split
    · split
      · rfl
      · rw [Memory.read_cons, if_neg (by simp only; omega)]
    · split
      · subst_vars
        split
        · rw [Memory.read_cons, if_neg (by simp only; omega)]
        · simp only [Memory.read_cons, if_neg (Ne.symm hne)]
      · simp only [Memory.read_cons, ih]

/-- A store of bytes keeps the canonical form. -/
theorem Memory.store_wf (bs : List Byte) (m : Memory) (a : Nat) (h : Memory.wf m) : Memory.wf (m.store a bs) := by
  induction bs generalizing m a with
  | nil => exact h
  | cons b bs ih => exact ih _ _ (Memory.write_wf m a b h)

/-- A store's cells are the old ones or at stored addresses. -/
theorem Memory.mem_store (bs : List Byte) (m : Memory) (a : Nat) (c : Host.Cell) (h : c ∈ m.store a bs) :
    c ∈ m ∨ (a ≤ c.1 ∧ c.1 < a + bs.length) := by
  induction bs generalizing m a with
  | nil => exact .inl h
  | cons b bs ih =>
    rcases ih _ _ h with h | h
    · rcases Memory.mem_write m a b c h with h | ⟨rfl, -⟩
      · exact .inl h
      · exact .inr ⟨Nat.le_refl _, by simp⟩
    · exact .inr (by simp only [List.length_cons]; omega)

theorem Memory.read_store_outside (bs : List Byte) (m : Memory) (a c : Nat) (h : c < a ∨ a + bs.length ≤ c) :
    Memory.read (m.store a bs) c = Memory.read m c := by
  induction bs generalizing m a with
  | nil => rfl
  | cons b bs ih =>
    simp only [List.length_cons] at h
    rw [Memory.store, ih _ _ (by omega), Memory.read_write_other _ _ _ _ (by omega)]

theorem Memory.read_store (bs : List Byte) (m : Memory) (a k : Nat) (hw : Memory.wf m) (h : k < bs.length) :
    Memory.read (m.store a bs) (a + k) = bs[k] := by
  induction bs generalizing m a k with
  | nil => simp at h
  | cons b bs ih =>
    rw [Memory.store]
    cases k with
    | zero =>
      rw [Memory.read_store_outside _ _ _ _ (by omega)]
      exact Memory.read_write_same m a b hw
    | succ k =>
      have := ih (Memory.write m a b) (a + 1) k (Memory.write_wf m a b hw) (by simpa using h)
      simpa [Nat.add_assoc, Nat.add_comm 1 k] using this

/-- The free buffer of a reset is canonical and inside `BUF`. -/
theorem freeBuffer_wf (n d : Nat) : Memory.wf (freeBuffer n d) ∧ ∀ c ∈ freeBuffer n d, c.1 < n := by
  refine ⟨Memory.store_wf _ _ _ ⟨List.Pairwise.nil, by simp⟩, fun c hc => ?_⟩
  rcases Memory.mem_store _ _ _ _ hc with h | h
  · simp at h
  · simpa using h.2

/-- Reset's byte buffer is canonical. -/
theorem reset_memory_wf : Memory.wf State.reset.buf := by decide

end Sys2Proof.Machine
end

