-- ==== Sys2Proof/Laws/Ops.lean ====
section
/-! SUPPORT. For each shared operation, once, everything it can do: how a run of a command's pseudocode goes on or ends,
and what each port primitive and each check leaves. Later proofs cite these and unfold no operation. -/

namespace Sys2Proof.Machine

/-! ### Runs -/

@[simp] theorem Run.bind_done {α β : Type} (a : α) (s : State) (f : α → State → Run β) :
    (Run.done a s).bind f = f a s := rfl
@[simp] theorem Run.bind_raised {α β : Type} (e : ErrorKind) (s : State) (f : α → State → Run β) :
    (Run.raised e s : Run α).bind f = .raised e s := rfl
@[simp] theorem Run.bind_stuck {α β : Type} (x : Fault) (f : α → State → Run β) :
    (Run.stuck x : Run α).bind f = .stuck x := rfl

theorem Run.bind_eq_done {α β : Type} {r : Run α} {f : α → State → Run β} {b : β} {t : State} :
    r.bind f = .done b t ↔ ∃ a s, r = .done a s ∧ f a s = .done b t := by
  cases r <;> simp [Run.bind]

theorem Run.bind_eq_raised {α β : Type} {r : Run α} {f : α → State → Run β} {e : ErrorKind} {t : State} :
    r.bind f = .raised e t ↔ r = .raised e t ∨ ∃ a s, r = .done a s ∧ f a s = .raised e t := by
  cases r <;> simp [Run.bind]

theorem Run.bind_eq_stuck {α β : Type} {r : Run α} {f : α → State → Run β} {x : Fault} :
    r.bind f = .stuck x ↔ r = .stuck x ∨ ∃ a s, r = .done a s ∧ f a s = .stuck x := by
  cases r <;> simp [Run.bind]

theorem Run.bind_assoc {α β γ : Type} (r : Run α) (f : α → State → Run β) (g : β → State → Run γ) :
    (r.bind f).bind g = r.bind fun a s => (f a s).bind g := by
  cases r <;> rfl

/-- A command ends in exactly one of two ways (R250). -/
theorem finish_eq_next {r : Run (Option Word64)} {t : State} :
    finish r = .next t ↔
      (∃ v s, r = .done v s ∧ t = succeed v s) ∨ ∃ e s, r = .raised e s ∧ t = raiseError e s := by
  cases r <;> simp [finish, eq_comm]

theorem finish_eq_fault {r : Run (Option Word64)} {x : Fault} : finish r = .fault x ↔ r = .stuck x := by
  cases r <;> simp [finish]

theorem finish_ne_refused (r : Run (Option Word64)) (x : Refusal) : finish r ≠ .refused x := by
  cases r <;> simp [finish]

/-! ### Port primitives -/

theorem answered_eq_done {α : Type} {p : Port} {s t : State} {x : Option (α × Device)} {a : α} :
    answered p s x = .done a t ↔ ∃ d, x = some (a, d) ∧ t = s.setPort p d := by
  rcases x with _ | ⟨b, d⟩ <;> simp [answered, eq_comm, and_comm]

theorem answered_ne_raised {α : Type} {p : Port} {s t : State} {x : Option (α × Device)} {e : ErrorKind} :
    answered p s x ≠ .raised e t := by
  rcases x with _ | ⟨b, d⟩ <;> simp [answered]

theorem answered_eq_stuck {α : Type} {p : Port} {s : State} {x : Option (α × Device)} {f : Fault} :
    answered p s x = .stuck f ↔ x = none ∧ f = .portSilent p := by
  rcases x with _ | ⟨b, d⟩ <;> simp [answered, eq_comm]

theorem srcRead_eq_done {p : Port} {s t : State} {a : SrcAnswer} :
    srcRead p s = .done a t ↔ ∃ d, (s.port p).srcRead = some (a, d) ∧ t = s.setPort p d := answered_eq_done

theorem srcRead_ne_raised {p : Port} {s t : State} {e : ErrorKind} : srcRead p s ≠ .raised e t :=
  answered_ne_raised

theorem srcRead_eq_stuck {p : Port} {s : State} {f : Fault} :
    srcRead p s = .stuck f ↔ (s.port p).srcRead = none ∧ f = .portSilent p := answered_eq_stuck

theorem snkWrite_eq_done {p : Port} {b : Byte} {s t : State} {a : Unit} :
    snkWrite p b s = .done a t ↔ ∃ d, (s.port p).snkWrite b = some (.ok, d) ∧ t = s.setPort p d := by
  rcases h : (s.port p).snkWrite b with _ | ⟨_ | _ | _, d⟩ <;> simp [snkWrite, answered, h, eq_comm]

theorem snkWrite_eq_raised {p : Port} {b : Byte} {s t : State} {e : ErrorKind} :
    snkWrite p b s = .raised e t ↔
      ∃ a d, (s.port p).snkWrite b = some (a, d) ∧ a.error? = some e ∧ t = s.setPort p d := by
  rcases h : (s.port p).snkWrite b with _ | ⟨_ | _ | _, d⟩ <;>
    simp [snkWrite, answered, h, SnkAnswer.error?, eq_comm]

theorem snkWrite_eq_stuck {p : Port} {b : Byte} {s : State} {f : Fault} :
    snkWrite p b s = .stuck f ↔ (s.port p).snkWrite b = none ∧ f = .portSilent p := by
  rcases h : (s.port p).snkWrite b with _ | ⟨_ | _ | _, d⟩ <;> simp [snkWrite, answered, h, eq_comm]

theorem getPos_eq_done {p : Port} {s t : State} {v : Word64} :
    getPos p s = .done v t ↔ ∃ d, (s.port p).getPos = some (.value v, d) ∧ t = s.setPort p d := by
  rcases h : (s.port p).getPos with _ | ⟨w | _, d⟩ <;> simp [getPos, answered, h, eq_comm, and_comm]

theorem getPos_eq_raised {p : Port} {s t : State} {e : ErrorKind} :
    getPos p s = .raised e t ↔
      e = .notSupported ∧ ∃ d, (s.port p).getPos = some (.notSeekable, d) ∧ t = s.setPort p d := by
  rcases h : (s.port p).getPos with _ | ⟨w | _, d⟩ <;> simp [getPos, answered, h, eq_comm]

theorem setPos_eq_done {p : Port} {v : Word64} {s t : State} {a : Unit} :
    setPos p v s = .done a t ↔ ∃ d, (s.port p).setPos v = some (.ok, d) ∧ t = s.setPort p d := by
  rcases h : (s.port p).setPos v with _ | ⟨_ | _, d⟩ <;> simp [setPos, answered, h, eq_comm]

theorem setPos_eq_raised {p : Port} {v : Word64} {s t : State} {e : ErrorKind} :
    setPos p v s = .raised e t ↔
      e = .notSupported ∧ ∃ d, (s.port p).setPos v = some (.notSeekable, d) ∧ t = s.setPort p d := by
  rcases h : (s.port p).setPos v with _ | ⟨_ | _, d⟩ <;> simp [setPos, answered, h, eq_comm]

theorem getLen_eq_done {p : Port} {s t : State} {v : Word64} :
    getLen p s = .done v t ↔ ∃ d, (s.port p).getLen = some (.value v, d) ∧ t = s.setPort p d := by
  rcases h : (s.port p).getLen with _ | ⟨w | _, d⟩ <;> simp [getLen, answered, h, eq_comm, and_comm]

theorem getLen_eq_raised {p : Port} {s t : State} {e : ErrorKind} :
    getLen p s = .raised e t ↔
      e = .notSupported ∧ ∃ d, (s.port p).getLen = some (.notSeekable, d) ∧ t = s.setPort p d := by
  rcases h : (s.port p).getLen with _ | ⟨w | _, d⟩ <;> simp [getLen, answered, h, eq_comm]

@[simp] theorem portClose_port (p : Port) (s : State) : (portClose p s).port p = (s.port p).close := by
  simp [portClose]

/-! ### What a device keeps (R59(b)) -/

theorem Device.srcRead_seekable {d d' : Device} {a : SrcAnswer} (h : d.srcRead = some (a, d')) :
    d'.seekable = d.seekable := by
  rcases d with m | ⟨_ | ⟨⟨_ | _ | _, w, l⟩, ds⟩, pos, hd, sk, cl⟩
  · simp only [Device.srcRead, MemStream.srcRead, Option.some.injEq, Prod.mk.injEq] at h
    obtain ⟨-, rfl⟩ := h
    split
    · rfl
    · split <;> rfl
  all_goals simp only [Device.srcRead, Option.some.injEq, Prod.mk.injEq, reduceCtorEq] at h
  all_goals obtain ⟨-, rfl⟩ := h; rfl

theorem Device.snkWrite_seekable {d d' : Device} {b : Byte} {a : SnkAnswer} (h : d.snkWrite b = some (a, d')) :
    d'.seekable = d.seekable := by
  rcases d with m | ⟨_ | ⟨⟨r, _ | _ | _, l⟩, ds⟩, pos, hd, sk, cl⟩
  · simp only [Device.snkWrite, MemStream.snkWrite, Option.some.injEq, Prod.mk.injEq] at h
    obtain ⟨-, rfl⟩ := h
    split
    · rfl
    · split <;> rfl
  all_goals simp only [Device.snkWrite, Option.some.injEq, Prod.mk.injEq, reduceCtorEq] at h
  all_goals obtain ⟨-, rfl⟩ := h; rfl

theorem Device.getPos_seekable {d d' : Device} {a : ValueAnswer} (h : d.getPos = some (a, d')) :
    d'.seekable = d.seekable := by
  rcases d with m | ⟨_ | ⟨_, ds⟩, pos, hd, sk, cl⟩ <;>
    simp only [Device.getPos, Option.some.injEq, Prod.mk.injEq, reduceCtorEq] at h <;>
    (obtain ⟨-, rfl⟩ := h; rfl)

theorem Device.getLen_seekable {d d' : Device} {a : ValueAnswer} (h : d.getLen = some (a, d')) :
    d'.seekable = d.seekable := by
  rcases d with m | ⟨_ | ⟨_, ds⟩, pos, hd, sk, cl⟩ <;>
    simp only [Device.getLen, Option.some.injEq, Prod.mk.injEq, reduceCtorEq] at h <;>
    (obtain ⟨-, rfl⟩ := h; rfl)

theorem Device.setPos_seekable {d d' : Device} {v : Word64} {a : SeekAnswer} (h : d.setPos v = some (a, d')) :
    d'.seekable = d.seekable := by
  rcases d with m | ⟨_ | ⟨_, ds⟩, pos, hd, sk, cl⟩
  · simp only [Device.setPos] at h
    split at h <;> (simp only [Option.some.injEq, Prod.mk.injEq] at h; obtain ⟨-, rfl⟩ := h; rfl)
  · simp [Device.setPos] at h
  · simp only [Device.setPos] at h
    split at h <;> (simp only [Option.some.injEq, Prod.mk.injEq] at h; obtain ⟨-, rfl⟩ := h; rfl)

@[simp] theorem Device.close_seekable (d : Device) : d.close.seekable = d.seekable := by cases d <;> rfl

/-! ### Checks -/

theorem gate_eq_done {u : BitUnit} {s t : State} {a : Unit} : gate u s = .done a t ↔ u.att = true ∧ t = s := by
  cases h : u.att <;> simp [gate, h, eq_comm]

theorem gate_eq_raised {u : BitUnit} {s t : State} {e : ErrorKind} :
    gate u s = .raised e t ↔ u.att = false ∧ e = .illegalState ∧ t = s := by
  cases h : u.att <;> simp [gate, h, eq_comm]

theorem gate_ne_stuck (u : BitUnit) (s : State) (f : Fault) : gate u s ≠ .stuck f := by
  cases h : u.att <;> simp [gate, h]

theorem countOperand_eq_done {limit n : Nat} {s t : State} :
    countOperand limit s = .done n t ↔ arg1Signed s = n ∧ n ≤ limit ∧ t = s := by
  simp only [countOperand, legalCount]
  split
  · rename_i m h
    split at h <;> simp at h
    simp only [Run.done.injEq]
    constructor
    · rintro ⟨rfl, rfl⟩; exact ⟨by omega, by omega, rfl⟩
    · rintro ⟨h1, h2, rfl⟩; exact ⟨by omega, rfl⟩
  · rename_i h
    split at h <;> simp at h
    simp only [reduceCtorEq, false_iff]
    omega

theorem countOperand_eq_raised {limit : Nat} {s t : State} {e : ErrorKind} :
    countOperand limit s = .raised e t ↔
      (arg1Signed s < 0 ∨ (limit : Int) < arg1Signed s) ∧ e = .invalidArgument ∧ t = s := by
  simp only [countOperand, legalCount]
  split
  · rename_i m h
    split at h <;> simp at h
    simp only [reduceCtorEq, false_iff]
    omega
  · rename_i h
    split at h <;> simp at h
    simp only [Run.raised.injEq]
    constructor
    · rintro ⟨rfl, rfl⟩; exact ⟨by omega, rfl, rfl⟩
    · rintro ⟨_, rfl, rfl⟩; exact ⟨rfl, rfl⟩

end Sys2Proof.Machine
end

