-- ==== Sys2Proof/Laws/PerInstr.lean ====
section
/-! SUPPORT. The per-instruction family `OpcodeFields`: a command's opcode has the `unit` and `fn` fields of
spec/30_encoding.md R91 and R92, which stand in the table. -/

namespace Sys2Proof.Laws.OpcodeFields

/-- The opcode of `i` carries the unit's number and the function's number, and they are no blank cell of R92. -/
def Statement (i : Instr) : Prop :=
  unitField (encode i) = i.unit.code ∧ fnField (encode i) = i.fn ∧ i.wellFormed = true

theorem venc : Statement .venc := ⟨by decide, by decide, by decide⟩
theorem vencb : Statement .vencb := ⟨by decide, by decide, by decide⟩
theorem vcnt : Statement .vcnt := ⟨by decide, by decide, by decide⟩
theorem vdec : Statement .vdec := ⟨by decide, by decide, by decide⟩
theorem rmOpen : Statement .rmOpen := ⟨by decide, by decide, by decide⟩
theorem rmBit : Statement .rmBit := ⟨by decide, by decide, by decide⟩
theorem rmBits32 : Statement .rmBits32 := ⟨by decide, by decide, by decide⟩
theorem rmBits64 : Statement .rmBits64 := ⟨by decide, by decide, by decide⟩
theorem rmGetpos : Statement .rmGetpos := ⟨by decide, by decide, by decide⟩
theorem rmSetpos : Statement .rmSetpos := ⟨by decide, by decide, by decide⟩
theorem rmLen : Statement .rmLen := ⟨by decide, by decide, by decide⟩
theorem rmEos : Statement .rmEos := ⟨by decide, by decide, by decide⟩
theorem rmClose : Statement .rmClose := ⟨by decide, by decide, by decide⟩
theorem rlOpen : Statement .rlOpen := ⟨by decide, by decide, by decide⟩
theorem rlBit : Statement .rlBit := ⟨by decide, by decide, by decide⟩
theorem rlBits32 : Statement .rlBits32 := ⟨by decide, by decide, by decide⟩
theorem rlBits64 : Statement .rlBits64 := ⟨by decide, by decide, by decide⟩
theorem rlGetpos : Statement .rlGetpos := ⟨by decide, by decide, by decide⟩
theorem rlSetpos : Statement .rlSetpos := ⟨by decide, by decide, by decide⟩
theorem rlLen : Statement .rlLen := ⟨by decide, by decide, by decide⟩
theorem rlEos : Statement .rlEos := ⟨by decide, by decide, by decide⟩
theorem rlClose : Statement .rlClose := ⟨by decide, by decide, by decide⟩
theorem wmOpen : Statement .wmOpen := ⟨by decide, by decide, by decide⟩
theorem wmBit : Statement .wmBit := ⟨by decide, by decide, by decide⟩
theorem wmBits32 : Statement .wmBits32 := ⟨by decide, by decide, by decide⟩
theorem wmBits64 : Statement .wmBits64 := ⟨by decide, by decide, by decide⟩
theorem wmRep : Statement .wmRep := ⟨by decide, by decide, by decide⟩
theorem wmGetpos : Statement .wmGetpos := ⟨by decide, by decide, by decide⟩
theorem wmLen : Statement .wmLen := ⟨by decide, by decide, by decide⟩
theorem wmFlush : Statement .wmFlush := ⟨by decide, by decide, by decide⟩
theorem wmClose : Statement .wmClose := ⟨by decide, by decide, by decide⟩
theorem wlOpen : Statement .wlOpen := ⟨by decide, by decide, by decide⟩
theorem wlBit : Statement .wlBit := ⟨by decide, by decide, by decide⟩
theorem wlBits32 : Statement .wlBits32 := ⟨by decide, by decide, by decide⟩
theorem wlBits64 : Statement .wlBits64 := ⟨by decide, by decide, by decide⟩
theorem wlRep : Statement .wlRep := ⟨by decide, by decide, by decide⟩
theorem wlGetpos : Statement .wlGetpos := ⟨by decide, by decide, by decide⟩
theorem wlLen : Statement .wlLen := ⟨by decide, by decide, by decide⟩
theorem wlFlush : Statement .wlFlush := ⟨by decide, by decide, by decide⟩
theorem wlClose : Statement .wlClose := ⟨by decide, by decide, by decide⟩
theorem swap16 : Statement .swap16 := ⟨by decide, by decide, by decide⟩
theorem tobe16 : Statement .tobe16 := ⟨by decide, by decide, by decide⟩
theorem frombe16 : Statement .frombe16 := ⟨by decide, by decide, by decide⟩
theorem swap32 : Statement .swap32 := ⟨by decide, by decide, by decide⟩
theorem tobe32 : Statement .tobe32 := ⟨by decide, by decide, by decide⟩
theorem frombe32 : Statement .frombe32 := ⟨by decide, by decide, by decide⟩
theorem swap64 : Statement .swap64 := ⟨by decide, by decide, by decide⟩
theorem tobe64 : Statement .tobe64 := ⟨by decide, by decide, by decide⟩
theorem frombe64 : Statement .frombe64 := ⟨by decide, by decide, by decide⟩

end Sys2Proof.Laws.OpcodeFields
end

