-- ==== Sys2Proof/Laws/Units.lean ====
section
/-! SUPPORT. What the shared operations of the readers (spec/41_bitreader.md R141) and of the writers
(spec/42_bitwriter.md R181, R182) do, one lemma for each answer of the device. -/

namespace Sys2Proof.Machine

/-! ### Readers -/

theorem refill_byte {o : BitOrder} {k : Cursor} {s : State} {b : Byte} {d : Device}
    (h : (s.port (readPort o)).srcRead = some (.byte b, d)) :
    refill o k s =
      .done () ((s.setPort (readPort o) d).setReader o { s.reader o with buf := b, cur := k }) := by
  simp [refill, srcRead, answered, h]

theorem refill_error {o : BitOrder} {k : Cursor} {s : State} {a : SrcAnswer} {e : ErrorKind} {d : Device}
    (h : (s.port (readPort o)).srcRead = some (a, d)) (he : a.error? = some e) :
    refill o k s = .raised e (s.setPort (readPort o) d) := by
  cases a <;> simp [SrcAnswer.error?] at he <;> subst he <;> simp [refill, srcRead, answered, h]

theorem refill_silent {o : BitOrder} {k : Cursor} {s : State} (h : (s.port (readPort o)).srcRead = none) :
    refill o k s = .stuck (.portSilent (readPort o)) := by
  simp [refill, srcRead, answered, h]

/-- Inside a byte a bit costs no transaction. -/
theorem readBit_inside {o : BitOrder} {s : State} (h : (s.reader o).cur ≠ 8) :
    readBit o s =
      .done (streamBit o (s.reader o).buf (s.reader o).cur.val)
        (s.setReader o { s.reader o with cur := (s.reader o).cur + 1 }) := by
  simp [readBit, h, takeBit]

/-- At a byte boundary exactly one byte is pulled and its first bit returned. -/
theorem readBit_boundary {o : BitOrder} {s : State} {b : Byte} {d : Device} (h : (s.reader o).cur = 8)
    (hd : (s.port (readPort o)).srcRead = some (.byte b, d)) :
    readBit o s =
      .done (streamBit o b 0) ((s.setPort (readPort o) d).setReader o { s.reader o with buf := b, cur := 1 }) := by
  simp [readBit, h, refill_byte hd, takeBit]

/-- A failed pull leaves the record as it was. -/
theorem readBit_error {o : BitOrder} {s : State} {a : SrcAnswer} {e : ErrorKind} {d : Device}
    (h : (s.reader o).cur = 8) (hd : (s.port (readPort o)).srcRead = some (a, d)) (he : a.error? = some e) :
    readBit o s = .raised e (s.setPort (readPort o) d) := by
  simp [readBit, h, refill_error hd he]

theorem readBit_silent {o : BitOrder} {s : State} (h : (s.reader o).cur = 8)
    (hd : (s.port (readPort o)).srcRead = none) : readBit o s = .stuck (.portSilent (readPort o)) := by
  simp [readBit, h, refill_silent hd]

/-! ### Writers -/

theorem emit_ok {o : BitOrder} {s : State} {d : Device}
    (h : (s.port (writePort o)).snkWrite (s.writer o).buf = some (.ok, d)) :
    emit o s =
      .done () ((s.setPort (writePort o) d).setWriter o { s.writer o with buf := 0, cur := 0 }) := by
  simp [emit, snkWrite, answered, h]

/-- A failed emission leaves the record as it was. -/
theorem emit_error {o : BitOrder} {s : State} {a : SnkAnswer} {e : ErrorKind} {d : Device}
    (h : (s.port (writePort o)).snkWrite (s.writer o).buf = some (a, d)) (he : a.error? = some e) :
    emit o s = .raised e (s.setPort (writePort o) d) := by
  cases a <;> simp [SnkAnswer.error?] at he <;> subst he <;> simp [emit, snkWrite, answered, h]

theorem emit_silent {o : BitOrder} {s : State} (h : (s.port (writePort o)).snkWrite (s.writer o).buf = none) :
    emit o s = .stuck (.portSilent (writePort o)) := by
  simp [emit, snkWrite, answered, h]

/-- The first seven bits of a byte emit nothing. -/
theorem placeBit_inside {o : BitOrder} {v : Bool} {s : State} (h : (s.writer o).cur + 1 ≠ 8) :
    placeBit o v s =
      .done () (s.setWriter o
        { s.writer o with
          buf := putStreamBit o (s.writer o).buf (s.writer o).cur.val v, cur := (s.writer o).cur + 1 }) := by
  simp [placeBit, h]

/-- The eighth bit emits the byte. -/
theorem placeBit_full {o : BitOrder} {v : Bool} {s : State} (h : (s.writer o).cur + 1 = 8) :
    placeBit o v s =
      emit o (s.setWriter o
        { s.writer o with buf := putStreamBit o (s.writer o).buf (s.writer o).cur.val v, cur := 8 }) := by
  simp [placeBit, h]

theorem writeBit_inside {o : BitOrder} {v : Bool} {s : State} (h : (s.writer o).cur ≠ 8) :
    writeBit o v s = placeBit o v s := by simp [writeBit, h]

theorem writeBit_retry {o : BitOrder} {v : Bool} {s : State} (h : (s.writer o).cur = 8) :
    writeBit o v s = (emit o s).bind fun _ s1 => placeBit o v s1 := by simp [writeBit, h]

theorem flushBits_boundary {o : BitOrder} {s : State} (h : (s.writer o).cur = 0) : flushBits o s = .done () s := by
  simp [flushBits, h]

theorem flushBits_pending {o : BitOrder} {s : State} (h : (s.writer o).cur ≠ 0) : flushBits o s = emit o s := by
  simp [flushBits, h]

/-! ### Counted loops -/

@[simp] theorem readBits_zero {o : BitOrder} {w : Nat} (r : BitVec w) (s : State) : readBits o 0 r s = .done r s := rfl
theorem readBits_succ {o : BitOrder} {w : Nat} (n : Nat) (r : BitVec w) (s : State) :
    readBits o (n + 1) r s = (readBit o s).bind fun b s1 => readBits o n (shiftInBit r b) s1 := rfl
@[simp] theorem writeField_zero {o : BitOrder} (v : Word64) (s : State) : writeField o v 0 s = .done () s := rfl
theorem writeField_succ {o : BitOrder} (v : Word64) (n : Nat) (s : State) :
    writeField o v (n + 1) s = (writeBit o (v.getLsbD n) s).bind fun _ s1 => writeField o v n s1 := rfl
@[simp] theorem writeRepeat_zero {o : BitOrder} (v : Bool) (s : State) : writeRepeat o v 0 s = .done () s := rfl
theorem writeRepeat_succ {o : BitOrder} (v : Bool) (n : Nat) (s : State) :
    writeRepeat o v (n + 1) s = (writeBit o v s).bind fun _ s1 => writeRepeat o v n s1 := rfl
@[simp] theorem writeBytes_nil (p : Port) (s : State) : writeBytes p [] s = .done () s := rfl
theorem writeBytes_cons (p : Port) (b : Byte) (bs : List Byte) (s : State) :
    writeBytes p (b :: bs) s = (snkWrite p b s).bind fun _ s1 => writeBytes p bs s1 := rfl

end Sys2Proof.Machine
end

