-- ==== Sys2Proof/Tests/Slice0.lean ====
section
/-! SUPPORT. The model's own checks: ill-formed terms refused, every opcode decoded from the bits of spec/30_encoding.md
R97, single steps with results taken from spec/95_test_vectors.md, and for each statement with hypotheses a concrete
case that meets them. -/

namespace Sys2Proof.Tests

open Sys2Proof.Machine

/-! ### Well-formedness: each check refuses an ill-formed term -/

theorem test_blank_cell_refused : fieldsWellFormed .varintDecoder 1 = false := by decide
theorem test_blank_reader_cell_refused : fieldsWellFormed .bitstreamReaderLsb 9 = false := by decide
theorem test_no_register_refused : (Transaction.read 6).wellFormed 16 = false := by decide
theorem test_above_buf_refused : (Transaction.read 32).wellFormed 16 = false := by decide
theorem test_wide_write_refused : (Transaction.write 3 (2 ^ 32)).wellFormed 16 = false := by decide
theorem test_wide_buf_write_refused : (Transaction.write 16 256).wellFormed 16 = false := by decide
theorem test_blen_too_large_refused : (Transaction.write 5 17).wellFormed 16 = false := by decide
theorem test_last_buf_register_accepted : (Transaction.write 31 255).wellFormed 16 = true := by decide

/-! ### Decoding: the words of R97, written as unit and fn bits -/

theorem test_decode_varint :
    decode 0b00000000#8 = .ok .venc ∧ decode 0b00000001#8 = .ok .vencb ∧ decode 0b00000010#8 = .ok .vcnt ∧
    decode 0b00010000#8 = .ok .vdec := by decide
theorem test_decode_rm :
    decode 0b00100000#8 = .ok .rmOpen ∧ decode 0b00100001#8 = .ok .rmBit ∧ decode 0b00100010#8 = .ok .rmBits32 ∧
    decode 0b00100011#8 = .ok .rmBits64 ∧ decode 0b00100100#8 = .ok .rmGetpos ∧
    decode 0b00100101#8 = .ok .rmSetpos ∧ decode 0b00100110#8 = .ok .rmLen ∧ decode 0b00100111#8 = .ok .rmEos ∧
    decode 0b00101000#8 = .ok .rmClose := by decide
theorem test_decode_wm :
    decode 0b00110000#8 = .ok .wmOpen ∧ decode 0b00110001#8 = .ok .wmBit ∧ decode 0b00110010#8 = .ok .wmBits32 ∧
    decode 0b00110011#8 = .ok .wmBits64 ∧ decode 0b00110100#8 = .ok .wmRep ∧ decode 0b00110101#8 = .ok .wmGetpos ∧
    decode 0b00110110#8 = .ok .wmLen ∧ decode 0b00110111#8 = .ok .wmFlush ∧ decode 0b00111000#8 = .ok .wmClose := by
  decide
theorem test_decode_rl :
    decode 0b01000000#8 = .ok .rlOpen ∧ decode 0b01000001#8 = .ok .rlBit ∧ decode 0b01000010#8 = .ok .rlBits32 ∧
    decode 0b01000011#8 = .ok .rlBits64 ∧ decode 0b01000100#8 = .ok .rlGetpos ∧
    decode 0b01000101#8 = .ok .rlSetpos ∧ decode 0b01000110#8 = .ok .rlLen ∧ decode 0b01000111#8 = .ok .rlEos ∧
    decode 0b01001000#8 = .ok .rlClose := by decide
theorem test_decode_wl :
    decode 0b01010000#8 = .ok .wlOpen ∧ decode 0b01010001#8 = .ok .wlBit ∧ decode 0b01010010#8 = .ok .wlBits32 ∧
    decode 0b01010011#8 = .ok .wlBits64 ∧ decode 0b01010100#8 = .ok .wlRep ∧ decode 0b01010101#8 = .ok .wlGetpos ∧
    decode 0b01010110#8 = .ok .wlLen ∧ decode 0b01010111#8 = .ok .wlFlush ∧ decode 0b01011000#8 = .ok .wlClose := by
  decide
theorem test_decode_endian :
    decode 0b01100000#8 = .ok .swap16 ∧ decode 0b01100001#8 = .ok .tobe16 ∧ decode 0b01100010#8 = .ok .frombe16 ∧
    decode 0b01110000#8 = .ok .swap32 ∧ decode 0b01110001#8 = .ok .tobe32 ∧ decode 0b01110010#8 = .ok .frombe32 ∧
    decode 0b10000000#8 = .ok .swap64 ∧ decode 0b10000001#8 = .ok .tobe64 ∧ decode 0b10000010#8 = .ok .frombe64 := by
  decide
/-- X1: bytes that are no opcode. -/
theorem test_decode_illegal :
    decode 0x03#8 = .error (.illegalCommand 0x03#8) ∧ decode 0x29#8 = .error (.illegalCommand 0x29#8) ∧
    decode 0x63#8 = .error (.illegalCommand 0x63#8) ∧ decode 0x90#8 = .error (.illegalCommand 0x90#8) ∧
    decode 0xFF#8 = .error (.illegalCommand 0xFF#8) := by decide
theorem test_table_word : decodeTableWord 8 0x25 = some .rmSetpos ∧ decodeTableWord 8 0x83 = none := by decide

/-! ### Helpers: small states -/

/-- The state after reset with `ARG0` and `ARG1` set. -/
def args (a0 : Word64) (a1 : Word32) : State := { State.reset with arg0 := a0, arg1 := a1 }

/-- A state with an open reader record and bytes on its port. -/
def rd (o : BitOrder) (data : List Byte) (buf : Byte) (cur : Cursor) (pos : Nat) (s : State) : State :=
  (s.setReader o { att := true, buf := buf, cur := cur }).setPort (readPort o)
    (.memStream { data := data, pos := pos, seekable := true, cap := none, closed := false })

/-- A state with an open writer record and a sink of some capacity. -/
def wr (o : BitOrder) (data : List Byte) (cap : Option Nat) (buf : Byte) (cur : Cursor) (s : State) : State :=
  (s.setWriter o { att := true, buf := buf, cur := cur }).setPort (writePort o)
    (.memStream { data := data, pos := data.length, seekable := true, cap := cap, closed := false })

/-- `STATUS` and `RES` after a command. -/
def out (i : Instr) (s : State) : Option (Byte × Word64) := (nextOf (exec i s)).map fun t => (t.status, t.res)

/-- `STATUS` and a reader's record after a command. -/
def outR (o : BitOrder) (i : Instr) (s : State) : Option (Byte × BitUnit) :=
  (nextOf (exec i s)).map fun t => (t.status, t.reader o)

/-- `STATUS`, a writer's record and its device after a command. -/
def outW (o : BitOrder) (i : Instr) (s : State) : Option (Byte × BitUnit × Device) :=
  (nextOf (exec i s)).map fun t => (t.status, t.writer o, t.port (writePort o))

/-- A stream device at a position. -/
def at_ (data : List Byte) (pos : Nat) : Device :=
  .memStream { data := data, pos := pos, seekable := true, cap := none, closed := false }

/-- A stream device that is not Seekable. -/
def fixedStream (data : List Byte) : Device :=
  .memStream { data := data, pos := 0, seekable := false, cap := none, closed := false }

/-- A device that never answers. -/
def silent : Device := .oracle { answers := [], pos := 0, held := [], seekable := true, closed := false }

/-- A stream device whose reads and writes fail. -/
def closedStream : Device :=
  .memStream { data := [], pos := 0, seekable := true, cap := none, closed := true }

/-! ### Varint: tables V1 and V2 -/

theorem test_venc_300 :
    (nextOf (exec .venc (args 300 0))).map (fun t => t.res) = some 2 ∧
    (nextOf (exec .venc (args 300 0))).map (fun t => t.port .p0) = some (at_ [0xAC, 0x02] 2) := by
  decide +kernel
theorem test_venc_sink_full :
    (nextOf (exec .venc ((args 300 0).setPort .p0
      (.memStream { data := [], pos := 0, seekable := true, cap := some 1, closed := false })))).map
      (fun t => t.status) = some 1 := by
  decide +kernel
theorem test_vencb_max :
    (nextOf (exec .vencb (args (2 ^ 64 - 1) 0))).map (fun t => (t.res, t.blen, t.buf.read 8, t.buf.read 9)) =
      some (10, 10, 0xFF, 0x01) := by
  decide +kernel
theorem test_vcnt_boundaries :
    out .vcnt (args 127 0) = some (0, 1) ∧ out .vcnt (args 128 0) = some (0, 2) ∧
    out .vcnt (args (2 ^ 63) 0) = some (0, 10) := by
  decide +kernel
theorem test_vdec_tenth_byte :
    out .vdec (State.reset.setPort .p1
      (at_ [0xFF, 0xFF, 0xFF, 0xFF, 0xFF, 0xFF, 0xFF, 0xFF, 0xFF, 0x7F] 0)) = some (0, 2 ^ 64 - 1) := by
  decide +kernel
theorem test_vdec_overflow :
    (nextOf (exec .vdec (State.reset.setPort .p1
      (at_ [0x80, 0x80, 0x80, 0x80, 0x80, 0x80, 0x80, 0x80, 0x80, 0x80] 0)))).map (fun t => t.status) =
      some 2 := by decide

/-! ### Readers: tables R1 to R4 -/

theorem test_bit_places :
    out .rmBit (rd .msb [0xA6, 0x3D] 0xA6 0 1 State.reset) = some (0, 1) ∧
    out .rlBit (rd .lsb [0xA6, 0x3D] 0xA6 0 1 State.reset) = some (0, 0) := by decide
theorem test_bits32 :
    out .rmBits32 (rd .msb [0x12, 0x34, 0x56, 0x78] 0 8 0 (args 0 32)) = some (0, 0x12345678) ∧
    out .rlBits32 (rd .lsb [0x12, 0x34, 0x56, 0x78] 0 8 0 (args 0 32)) = some (0, 0x482C6A1E) := by decide
theorem test_bits64_inside_byte :
    out .rmBits64 (rd .msb [0xA6, 0x3D, 0xC1] 0xA6 3 1 (args 0 13)) = some (0, 0x63D) ∧
    out .rlBits64 (rd .lsb [0xA6, 0x3D, 0xC1] 0xA6 3 1 (args 0 13)) = some (0, 0x5BC) := by decide
theorem test_bits32_end_of_stream :
    outR .msb .rmBits32 (rd .msb [0x0F] 0 8 0 (args 0 9)) = some (1, { att := true, buf := 0x0F, cur := 8 }) := by
  decide
theorem test_getpos_len :
    out .rmGetpos (rd .msb [0xA6, 0x3D] 0xA6 3 1 State.reset) = some (0, 3) ∧
    out .rlGetpos (rd .lsb [0xA6, 0x3D] 0 8 5 State.reset) = some (0, 40) ∧
    out .rmLen (rd .msb [0xA6, 0x3D] 0 8 0 State.reset) = some (0, 16) ∧
    out .rlLen (rd .lsb [0xA6, 0x3D] 0 8 0 State.reset) = some (0, 16) := by decide
theorem test_setpos :
    outR .msb .rmSetpos (rd .msb [0xA6, 0x3D] 0 8 0 (args 11 0)) = some (0, { att := true, buf := 0x3D, cur := 3 }) ∧
    outR .lsb .rlSetpos (rd .lsb [0xA6, 0x3D] 0x3D 4 2 (args 8 0)) =
      some (0, { att := true, buf := 0x3D, cur := 8 }) ∧
    outR .msb .rmSetpos (rd .msb [0xA6, 0x3D] 0x3D 4 2 (args 17 0)) =
      some (1, { att := true, buf := 0x3D, cur := 8 }) := by decide
theorem test_eos :
    outR .msb .rmEos (rd .msb [0xA6, 0x3D] 0 8 0 State.reset) = some (0, { att := true, buf := 0xA6, cur := 0 }) ∧
    out .rlEos (rd .lsb [0xA6] 0xA6 8 1 State.reset) = some (0, 1) := by decide
theorem test_reader_close :
    outR .msb .rmClose (rd .msb [0xA6] 0xA6 2 1 State.reset) = some (0, { att := false, buf := 0xA6, cur := 2 }) ∧
    outR .lsb .rlClose (rd .lsb [0xA6] 0xA6 2 1 State.reset) = some (0, { att := false, buf := 0xA6, cur := 2 }) := by
  decide
theorem test_released_reader :
    (nextOf (exec .rmBits32 (args 0 99))).map (fun t => t.status) = some 4 ∧
    (nextOf (exec .rlClose State.reset)).map (fun t => t.status) = some 4 := by decide

/-! ### Writers: tables W1 to W4 -/

theorem test_writer_bits32 :
    outW .msb .wmBits32 (wr .msb [] none 0x80 1 (args 0x2B5 10)) =
      some (0, { att := true, buf := 0xA0, cur := 3 }, at_ [0xD6] 1) ∧
    outW .lsb .wlBits32 (wr .lsb [] none 0x01 1 (args 0x2B5 10)) =
      some (0, { att := true, buf := 0x05, cur := 3 }, at_ [0x6B] 1) := by decide
theorem test_writer_rep :
    outW .msb .wmRep (wr .msb [0xD6] none 0xA0 3 (args 1 6)) =
      some (0, { att := true, buf := 0x80, cur := 1 }, at_ [0xD6, 0xBF] 2) ∧
    outW .lsb .wlRep (wr .lsb [0x6B] none 0x05 3 (args 1 6)) =
      some (0, { att := true, buf := 0x01, cur := 1 }, at_ [0x6B, 0xFD] 2) := by decide
theorem test_writer_bit_masks_operand :
    outW .lsb .wlBit (wr .lsb [] none 0x0A 4 (args 0xFFFFFFFE 0)) =
      some (0, { att := true, buf := 0x0A, cur := 5 }, at_ [] 0) ∧
    outW .msb .wmBit (wr .msb [] none 0xB0 7 (args 0 0)) =
      some (0, { att := true, buf := 0, cur := 0 }, at_ [0xB0] 1) := by decide
theorem test_writer_limits :
    (nextOf (exec .wmBits64 (wr .msb [] none 0 0 (args 0 64)))).map (fun t => t.status) = some 3 ∧
    (nextOf (exec .wlBits64 (wr .lsb [] none 0 0 (args 0 63)))).map (fun t => t.status) = some 0 ∧
    (nextOf (exec .wmRep (wr .msb [] none 0 0 (args 1 (-5))))).map (fun t => t.status) = some 3 := by decide
theorem test_writer_sink_failure :
    (nextOf (exec .wmBits32 (wr .msb [] (some 1) 0 0 (args 0xABCD 16)))).map (fun t => (t.status, t.wm)) =
      some (1, { att := true, buf := 0xCD, cur := 8 }) ∧
    (nextOf (exec .wlBits32 (wr .lsb [] (some 1) 0 0 (args 0xABCD 16)))).map (fun t => (t.status, t.wl)) =
      some (1, { att := true, buf := 0xB3, cur := 8 }) := by decide
theorem test_writer_positions :
    out .wmGetpos (wr .msb [0xD6] none 0xA0 3 State.reset) = some (0, 11) ∧
    out .wlLen (wr .lsb [0x11, 0x22, 0x33] none 0x0F 4 State.reset) = some (0, 0x1C) ∧
    out .wlGetpos (wr .lsb [0xAB] (some 1) 0xCD 8 State.reset) = some (0, 16) ∧
    out .wmLen (wr .msb [0xAB] (some 1) 0xCD 8 State.reset) = some (0, 16) := by decide
theorem test_flush :
    outW .msb .wmFlush (wr .msb [] none 0x80 7 State.reset) =
      some (0, { att := false, buf := 0, cur := 0 }, at_ [0x80] 1) ∧
    outW .lsb .wlFlush (wr .lsb [] none 0x01 7 State.reset) =
      some (0, { att := false, buf := 0, cur := 0 }, at_ [0x01] 1) := by decide
theorem test_writer_close :
    (nextOf (exec .wmClose (wr .msb [] none 0xFC 6 State.reset))).map (fun t => t.port .p3) =
      some (.memStream { data := [0xFC], pos := 1, seekable := true, cap := none, closed := true }) ∧
    (nextOf (exec .wlClose (wr .lsb [] none 0x3F 6 State.reset))).map (fun t => t.port .p5) =
      some (.memStream { data := [0x3F], pos := 1, seekable := true, cap := none, closed := true }) := by decide

/-! ### Endian: table E1 -/

theorem test_swap :
    out .swap16 (args 0xABCD1234 0) = some (0, 0x3412) ∧
    out .swap32 (args 0x1122334455667788 0) = some (0, 0x88776655) ∧
    out .swap64 (args 0x0123456789ABCDEF 0) = some (0, 0xEFCDAB8967452301) := by decide
theorem test_tobe :
    (nextOf (exec .tobe16 (args 0xABCD1234 0))).map (fun t => (t.buf, t.blen)) =
      some ([(0, 0x12), (1, 0x34)], 2) ∧
    (nextOf (exec .tobe32 (args 0xDEADBEEF 0))).map (fun t => (t.buf, t.blen)) =
      some ([(0, 0xDE), (1, 0xAD), (2, 0xBE), (3, 0xEF)], 4) ∧
    (nextOf (exec .tobe64 (args 0x0123456789ABCDEF 0))).map (fun t => (t.buf.read 0, t.buf.read 7, t.blen)) =
      some (0x01, 0xEF, 8) := by decide

/-- The buffer of table E1. -/
def e1 (off : Word32) : State :=
  { args 0 off with
    blen := 10, buf := Memory.store [] 0 [0x00, 0x11, 0x22, 0x33, 0x44, 0x55, 0x66, 0x77, 0x88, 0x99] }

theorem test_frombe :
    out .frombe16 (e1 8) = some (0, 0x8899) ∧ out .frombe32 (e1 3) = some (0, 0x33445566) ∧
    out .frombe64 (e1 2) = some (0, 0x2233445566778899) := by decide
theorem test_frombe_out_of_range :
    (nextOf (exec .frombe16 (e1 9))).map (fun t => t.status) = some 5 ∧
    (nextOf (exec .frombe32 (e1 7))).map (fun t => t.status) = some 5 ∧
    (nextOf (exec .frombe64 (e1 (-1)))).map (fun t => t.status) = some 5 := by decide
theorem test_swap_groups :
    swapGroups [1, 2, 3, 4] 2 = some [2, 1, 4, 3] ∧ swapGroups [1, 2, 3] 2 = none ∧ swapGroups [1, 2] 1 = none := by
  decide
theorem test_host_byte_order :
    hostByteOrder [1, 2, 3, 4, 5, 6, 7, 8] 0x0807060504030201 = .littleEndian ∧
    hostByteOrder [1, 2, 3, 4, 5, 6, 7, 8] 0x0102030405060708 = .bigEndian ∧
    hostByteOrder [1, 2, 3, 4, 5, 6, 7, 8] 0 = .unknown := by decide

/-! ### The step -/

/-- A state whose host's next event is given. -/
def queue (e : Event) : State := { State.reset with script := [e] }

theorem test_step_command :
    (nextOf (step (queue (.host (.write 0 0x20))))).map (fun t => (t.rm.att, t.script, t.txIndex)) =
      some (true, [], 1) := by decide
theorem test_step_illegal :
    (nextOf (step (queue (.host (.write 0 0x90))))).map (fun t => t.status) = some 7 := by decide
theorem test_step_refusals :
    nextOf (step (queue (.host (.read 6)))) = none ∧ nextOf (step (queue (.host (.write 5 17)))) = none ∧
    nextOf (step (queue (.wire .p2 (fixedStream [])))) = none := by decide
theorem test_fetch_word : (nextOf (step (State.reset.withFetchWord 8 0x50))).map (fun t => t.wl.att) = some true := by
  decide

/-! ### Witnesses: for each statement with hypotheses, a case that meets them -/

theorem witness_IllegalBytesComplete :
    decode 0x03#8 = .error (.illegalCommand 0x03#8) ∧ decode 0xFF#8 = .error (.illegalCommand 0xFF#8) ∧
    (queue (.host (.write 0 ((0xFF#8).setWidth 64)))).script = [.host (.write 0 ((0xFF#8).setWidth 64))] := by decide
theorem witness_StepRunsDecodedCommand :
    (queue (.host (.write 0 0x82))).script = [.host (.write 0 0x82)] ∧ (0x82 : Word64).toNat < 256 ∧
    decode ((0x82 : Word64).setWidth 8) = .ok .frombe64 := by decide
theorem witness_HostWritesRegisters :
    (255 : Word64).toNat < 256 ∧ (queue (.host (.write 1 255))).script = [.host (.write 1 255)] ∧
    (2 ^ 32 - 1 : Word64).toNat < 2 ^ 32 ∧ (16 : Word64).toNat ≤ (queue (.host (.write 5 16))).bufBytes ∧
    15 < (queue (.host (.write (16 + 15) 255))).bufBytes ∧ Memory.wf State.reset.buf := by decide
theorem witness_HostWritesRegisters_heads :
    (queue (.host (.write 2 7))).script = [.host (.write 2 7)] ∧
    (queue (.host (.write 3 7))).script = [.host (.write 3 7)] ∧
    (queue (.host (.write 4 7))).script = [.host (.write 4 7)] ∧
    (queue (.host (.write 5 16))).script = [.host (.write 5 16)] ∧
    (queue (.host (.write 31 7))).script = [.host (.write (16 + 15) 7)] := by decide
theorem witness_HostReadsRegisters :
    (queue (.host (.read 0))).script = [.host (.read 0)] ∧ (queue (.host (.read 1))).script = [.host (.read 1)] ∧
    (queue (.host (.read 5))).script = [.host (.read 5)] ∧ 15 < (queue (.host (.read 31))).bufBytes ∧
    (queue (.host (.read 31))).script = [.host (.read (16 + 15))] := by decide
theorem witness_HostAccessRefusedExactly :
    (queue (.host (.read 32))).script = [.host (.read 32)] ∧ (Transaction.read 32).wellFormed 16 = false ∧
    (Transaction.read 31).wellFormed 16 = true ∧ (queue (.host (.read 32))).bufBytes = 16 := by decide
theorem witness_ResetEventReleasesUnits : (queue .reset).script = [.reset] := by decide
theorem witness_StepKeepsInvariant :
    (queue (.host (.write 0 0x31))).Inv ∧ (nextOf (step (queue (.host (.write 0 0x31))))).isSome = true := by decide

/-- A reader inside a byte of its device. -/
def insideByte : State := rd .msb [0xA6, 0x3D] 0xA6 3 1 State.reset

theorem witness_ReaderLookaheadKept :
    (∀ o, LookaheadOk (insideByte.reader o) (insideByte.port (readPort o))) ∧
    (nextOf (exec .rmBit insideByte)).isSome = true :=
  ⟨fun o => by cases o <;> intro h _ <;> first | exact ⟨by decide, by decide⟩ | exact absurd h (by decide), by decide⟩
theorem witness_ParametersNeverChange :
    (nextOf (step (queue (.wire .p2 (at_ [1] 0))))).isSome = true ∧
    (nextOf (step (queue (.host (.write 0 0x26))))).isSome = true := by decide
theorem witness_OtherPortsIrrelevant :
    unitPort Instr.rmBit.unit ≠ some .p4 ∧ unitPort Instr.swap16.unit ≠ some .p0 := by decide
theorem witness_OtherRecordsIrrelevant :
    Instr.rmBit.unit ≠ readerUnit .lsb ∧ Instr.rmBit.unit ≠ writerUnit .msb ∧ Instr.vdec.unit ≠ writerUnit .lsb := by
  decide
theorem witness_CommandsKeepEverythingElse :
    out .wmOpen State.reset = some (0, 0) ∧ Instr.rmBit ∉ [Instr.vencb, .tobe16, .tobe32, .tobe64] ∧
    unitPort Instr.wmOpen.unit ≠ some .p2 ∧ Instr.wmOpen.unit ≠ readerUnit .msb ∧
    Instr.wmOpen.unit ≠ writerUnit .lsb := by decide
theorem witness_CommandsRaiseListedErrors :
    (nextOf (exec .vdec State.reset)).map (fun t => t.status) = some (errorCode .endOfStream) ∧
    ErrorKind.endOfStream ∈ mayRaise .vdec ∧ (∀ i, decode 0x83#8 ≠ .ok i) := by
  refine ⟨by decide, by decide, fun i => ?_⟩
  cases i <;> decide
theorem witness_ReleasedUnitsRaiseIllegalState :
    Instr.rmEos.unit = readerUnit .msb ∧ Instr.rmEos ≠ rdOpen .msb ∧ (State.reset.reader .msb).att = false ∧
    Instr.wlFlush.unit = writerUnit .lsb ∧ Instr.wlFlush ≠ wrOpen .lsb ∧ (State.reset.writer .lsb).att = false := by
  decide
theorem witness_CountsOutsideRangeRaise :
    ((rd .msb [] 0 8 0 (args 0 33)).reader .msb).att = true ∧ 32 < (args 0 33).arg1.toInt ∧
    64 < (args 0 65).arg1.toInt ∧ ((wr .lsb [] none 0 0 (args 0 32)).writer .lsb).att = true ∧
    31 < (args 0 32).arg1.toInt ∧ 63 < (args 0 64).arg1.toInt ∧ (args 0 (-1)).arg1.toInt < 0 := by decide
theorem witness_UnitLifecycle :
    (nextOf (exec .rmOpen State.reset)).isSome = true ∧ (nextOf (exec .wlClose State.reset)).isSome = true := by decide

/-- A state whose `BLEN` is above its `BUF_BYTES`, which no run reaches. -/
def overlong : State := { args 0 10 with bufExtra := 0, blen := 255 }

theorem witness_CommandsHangOnlyOnSilentDevices :
    exec .vdec (State.reset.setPort .p1 silent) = .fault (.portSilent .p1) ∧
    exec .frombe16 overlong = .fault .bufAbsent := ⟨rfl, rfl⟩
theorem witness_ReferenceDevicesLetCommandsComplete :
    (∀ p, (State.reset.port p).isMemStream = true) ∧ State.reset.blen.toNat ≤ State.reset.bufBytes :=
  ⟨fun p => by cases p <;> rfl, by decide⟩

/-- An open device with one place left and a gap before its position. -/
def gapped : MemStream := { data := [1], pos := 3, seekable := true, cap := some 4, closed := false }

theorem witness_DeviceWrites : gapped.closed = false ∧ ∀ k, gapped.cap = some k → gapped.pos < k :=
  ⟨rfl, fun k h => by cases h; decide⟩

/-- A free device that takes a byte and then fails. -/
def takesOne : OracleDevice :=
  { answers := [{ read := .eof, write := .ok, length := 0 }, { read := .eof, write := .ioError, length := 0 }]
    pos := 3, held := [(1, 0x11), (3, 0x33)], seekable := true, closed := false }

/-- That device after it took the byte, and after it failed. -/
def tookOne (n : Nat) : Device :=
  .oracle { takesOne with answers := takesOne.answers.drop n, pos := 4, held := [(1, 0x11), (3, 0xAB)] }

theorem witness_DeviceWrites_free :
    (Device.oracle takesOne).snkWrite 0xAB = some (.ok, tookOne 1) ∧
    (tookOne 1).snkWrite 0xCD = some (.ioError, tookOne 2) ∧
    closedStream.snkWrite 0xCD = some (.ioError, closedStream) ∧ SnkAnswer.ioError ≠ .ok := by decide
theorem witness_VarintBytesShape :
    varintBytes 0 = [0x00] ∧ varintBytes (2 ^ 7 - 1) = [0x7F] ∧ varintBytes (2 ^ 7) = [0x80, 0x01] ∧
    varintBytes (2 ^ 63) = [0x80, 0x80, 0x80, 0x80, 0x80, 0x80, 0x80, 0x80, 0x80, 0x01] := by decide

/-- A sink with room for one byte. -/
def roomForOne : Device :=
  .memStream { data := [], pos := 0, seekable := true, cap := some 1, closed := false }

/-- That sink, full. -/
def roomUsed : Device :=
  .memStream { data := [0xAC], pos := 1, seekable := true, cap := some 1, closed := false }

theorem witness_VencWritesVarint :
    pushBytes (varintBytes 300) (State.reset.port .p0) = some (at_ [0xAC, 0x02] 2) ∧
    (varintBytes 300)[1]? = some 0x02 ∧ pushBytes ((varintBytes 300).take 1) roomForOne = some roomUsed ∧
    roomUsed.snkWrite 0x02 = some (.endOfStream, roomUsed) ∧
    SnkAnswer.endOfStream.error? = some .endOfStream := by decide
theorem witness_VencbFillsBuffer : Memory.wf State.reset.buf := by decide
theorem witness_VdecDecodes :
    pullBytes 1 (at_ [0xAC, 0x02] 0) = some ([0xAC], at_ [0xAC, 0x02] 1) ∧ (∀ b ∈ [(0xAC : Byte)], b.getLsbD 7 = true) ∧
    (at_ [0xAC, 0x02] 1).srcRead = some (.byte 0x02, at_ [0xAC, 0x02] 2) ∧ (0x02 : Byte).getLsbD 7 = false := by decide
theorem witness_VdecDecodes_errors :
    pullBytes 0 (at_ [] 0) = some ([], at_ [] 0) ∧ (at_ [] 0).srcRead = some (.eof, at_ [] 0) ∧
    SrcAnswer.eof.error? = some .endOfStream ∧ pullBytes 0 silent = some ([], silent) ∧ silent.srcRead = none ∧
    pullBytes 10 (at_ (List.replicate 10 0x80) 0) = some (List.replicate 10 0x80, at_ (List.replicate 10 0x80) 10) := by
  decide
theorem witness_VarintRoundTrip :
    State.reset.port .p0 = streamOf [] true ∧
    (State.reset.setPort .p1 (streamOf ([0x00] ++ [5]) true)).port .p1 = streamOf ([0x00] ++ [5]) true := by decide

theorem witness_ReaderBitCommand :
    ((rd .lsb [0xA6] 0xA6 7 1 State.reset).reader .lsb).att = true ∧
    ((rd .lsb [0xA6] 0xA6 7 1 State.reset).reader .lsb).cur.val < 8 ∧
    ((rd .msb [0xA6] 0 8 0 State.reset).reader .msb).cur.val = 8 ∧
    (at_ [0xA6] 0).srcRead = some (.byte 0xA6, at_ [0xA6] 1) ∧ (at_ [] 0).srcRead = some (.eof, at_ [] 0) ∧
    SrcAnswer.eof.error? = some .endOfStream ∧ silent.srcRead = none := by decide
theorem witness_ReaderBitsResult :
    ((rd .msb [0xA6, 0x3D] 0xA6 3 1 (args 0 32)).reader .msb).att = true ∧ (args 0 32).arg1.toInt = (32 : Nat) ∧
    pullsNeeded 3 13 = 1 ∧ pullsNeeded 8 64 = 8 ∧ pullsNeeded 1 64 = 8 ∧ pullsNeeded 3 5 = 0 ∧ pullsNeeded 8 0 = 0 ∧
    pullBytes (pullsNeeded 3 13) (at_ [0xA6, 0x3D] 1) = some ([0x3D], at_ [0xA6, 0x3D] 2) := by decide
theorem witness_ReaderBitsSourceFailure :
    ((rd .msb [0x0F] 0 8 0 (args 0 9)).reader .msb).att = true ∧ (args 0 9).arg1.toInt = (9 : Nat) ∧
    1 < pullsNeeded 8 9 ∧ pullBytes 1 (at_ [0x0F] 0) = some ([0x0F], at_ [0x0F] 1) ∧
    (at_ [0x0F] 1).srcRead = some (.eof, at_ [0x0F] 1) ∧ SrcAnswer.eof.error? = some .endOfStream := by decide
theorem witness_ReaderBitsAreBitByBit :
    ((rd .lsb [0xA6] 0 8 0 (args 0 64)).reader .lsb).att = true ∧ (args 0 64).arg1.toInt = (64 : Nat) := by decide
theorem witness_ReaderGetposLen :
    insideByte.rm.att = true ∧ (at_ [0xA6, 0x3D] 1).getPos = some (.value 1, at_ [0xA6, 0x3D] 1) ∧
    (at_ [0xA6, 0x3D] 1).getLen = some (.value 2, at_ [0xA6, 0x3D] 1) ∧
    (fixedStream []).getPos = some (.notSeekable, fixedStream []) ∧
    (fixedStream []).getLen = some (.notSeekable, fixedStream []) := by decide
theorem witness_ReaderSetposCommand :
    insideByte.rm.att = true ∧ (fixedStream []).setPos (BitVec.ofNat 64 (11 / 8)) = some (.notSeekable, fixedStream []) ∧
    (at_ [0xA6, 0x3D] 0).setPos (BitVec.ofNat 64 (11 / 8)) = some (.ok, at_ [0xA6, 0x3D] 1) ∧ 11 % 8 ≠ 0 ∧ 8 % 8 = 0 ∧
    (at_ [0xA6, 0x3D] 1).srcRead = some (.byte 0x3D, at_ [0xA6, 0x3D] 2) ∧
    (at_ [0xA6, 0x3D] 2).srcRead = some (.eof, at_ [0xA6, 0x3D] 2) ∧ SrcAnswer.eof.error? = some .endOfStream := by
  decide
theorem witness_ReaderEosCommand :
    insideByte.rm.att = true ∧ insideByte.rm.cur.val < 8 ∧ (rd .msb [] 0 8 0 State.reset).rm.cur.val = 8 ∧
    (at_ [] 0).srcRead = some (.eof, at_ [] 0) ∧ closedStream.srcRead = some (.ioError, closedStream) ∧
    (at_ [7] 0).srcRead = some (.byte 7, at_ [7] 1) := by decide
theorem witness_ReaderCloseCommand : (insideByte.reader .msb).att = true := by decide
theorem witness_SetposThenGetposAndBit :
    (nextOf (exec .rmSetpos (rd .msb [0xA6, 0x3D] 0 8 0 (args 11 0)))).map (fun t => t.status) = some 0 ∧
    ((nextOf (exec .rmSetpos (rd .msb [0xA6, 0x3D] 0 8 0 (args 11 0)))).bind fun t => out .rmBit t) =
      some (0, 1) := by decide
theorem witness_BitPositionAdvances :
    out .rmBit insideByte = some (0, 0) ∧ out .rmEos insideByte = some (0, 0) ∧ out .rmLen insideByte = some (0, 16) ∧
    out .rmGetpos insideByte = some (0, 3) ∧ out .rmBits32 insideByte = some (0, 0) ∧
    out .rmBits64 insideByte = some (0, 0) := by decide
theorem witness_EosExactlyAtTheEnd :
    (insideByte.reader .msb).att = true ∧ insideByte.port .p2 = at_ [0xA6, 0x3D] 1 ∧
    LookaheadOk (insideByte.reader .msb) (at_ [0xA6, 0x3D] 1) :=
  ⟨by decide, by decide, fun _ _ => ⟨by decide, by decide⟩⟩

/-- A writer with three pending bits, 101, and an empty sink. -/
def threePending : State := wr .msb [] none 0xA0 3 (args 1 6)

theorem witness_WriterBitCommand :
    threePending.wm.att = true ∧ threePending.wm.cur.val < 7 ∧
    (∀ j, j < 8 → (0xB0 : Byte).getLsbD j =
      if j = 7 - 3 then threePending.arg0.getLsbD 0 else threePending.wm.buf.getLsbD j) ∧
    (wr .msb [] none 0xB0 7 State.reset).wm.cur.val = 7 ∧ (at_ [] 0).snkWrite 0xB0 = some (.ok, at_ [0xB0] 1) ∧
    roomUsed.snkWrite 0xB0 = some (.endOfStream, roomUsed) ∧ silent.snkWrite 0xB0 = none := by decide
theorem witness_WriterBitsResult :
    threePending.wm.att = true ∧ threePending.arg1.toInt = (6 : Nat) ∧ WriterOk .msb threePending.wm ∧
    threePending.wm.cur.val < 8 ∧ (args 0 0).arg1.toInt = (0 : Nat) ∧
    pushBytes (packBytes .msb 1 (pendingBits .msb threePending.wm ++ fieldBits 1 6)) (threePending.port .p3) =
      some (at_ [0xA0] 1) ∧
    pushBytes (packBytes .msb 1 (pendingBits .msb threePending.wm ++ List.replicate 6 true)) (threePending.port .p3) =
      some (at_ [0xBF] 1) := by decide
theorem witness_WriterBitsSinkFailure :
    (wr .msb [] (some 1) 0 0 (args 0xABCD 16)).wm.att = true ∧
    WriterOk .msb (wr .msb [] (some 1) 0 0 (args 0xABCD 16)).wm ∧
    (packBytes .msb 2 (fieldBits 0xABCD 16))[1]? = some 0xCD ∧
    pushBytes ((packBytes .msb 2 (fieldBits 0xABCD 16)).take 1) roomForOne =
      some (.memStream { data := [0xAB], pos := 1, seekable := true, cap := some 1, closed := false }) ∧
    (Device.memStream { data := [0xAB], pos := 1, seekable := true, cap := some 1, closed := false }).snkWrite 0xCD =
      some (.endOfStream, .memStream { data := [0xAB], pos := 1, seekable := true, cap := some 1, closed := false }) ∧
    (args 0xABCD 16).arg1.toInt = (16 : Nat) := by decide
theorem witness_WriterBitsAreBitByBit : threePending.wm.att = true ∧ threePending.arg1.toInt = (6 : Nat) := by decide
theorem witness_WriterGetposLen :
    threePending.wm.att = true ∧ (at_ [9] 1).getPos = some (.value 1, at_ [9] 1) ∧
    (at_ [9] 1).getLen = some (.value 1, at_ [9] 1) ∧ (fixedStream []).getPos = some (.notSeekable, fixedStream []) := by
  decide
theorem witness_WriterFlushAndClose :
    threePending.wm.att = true ∧ 0 < threePending.wm.cur.val ∧ (wr .lsb [] none 0 0 State.reset).wl.cur.val = 0 ∧
    (at_ [] 0).snkWrite 0xA0 = some (.ok, at_ [0xA0] 1) ∧ closedStream.snkWrite 0xA0 = some (.ioError, closedStream) ∧
    SnkAnswer.ioError.error? = some .ioError ∧ silent.snkWrite 0xA0 = none := by decide
theorem witness_WriterRetriesTheUnsentByte :
    (wr .msb [] none 0xCD 8 (args 1 0)).wm.att = true ∧ (wr .msb [] none 0xCD 8 (args 1 0)).wm.cur.val = 8 ∧
    (at_ [] 0).snkWrite 0xCD = some (.ok, at_ [0xCD] 1) ∧
    roomUsed.snkWrite 0xCD = some (.endOfStream, roomUsed) := by decide
theorem witness_BitStreamRoundTrip :
    (wr .msb [] none 0 0 State.reset).writer .msb = { att := true, buf := 0, cur := 0 } ∧
    (wr .msb [] none 0 0 State.reset).port .p3 = streamOf [] true ∧
    (rd .msb [0x80] 0 8 0 State.reset).reader .msb = { att := true, buf := 0, cur := 8 } ∧
    (rd .msb [0x80] 0 8 0 State.reset).port .p2 = streamOf [0x80] true ∧
    ([ReadCmd.bit, .bits32 7].map ReadCmd.count).sum = 8 * [(0x80 : Byte)].length := by decide

/-- The command that writes 1000000. -/
def seven : WriteCmd := .bits32 0x40 7

theorem witness_CrossOrderingReversesBytes :
    ((writeAll .msb [seven] (wr .msb [] none 0 0 State.reset)).bind fun t =>
      (nextOf (exec .wmFlush t)).map fun u => u.port .p3) = some (at_ [0x80] 1) ∧
    ((writeAll .lsb [seven] (wr .lsb [] none 0 0 State.reset)).bind fun t =>
      (nextOf (exec .wlFlush t)).map fun u => u.port .p5) = some (at_ [0x01] 1) := by decide
theorem witness_TobeAndEndianLaws :
    (Instr.tobe32, 4) ∈ [(Instr.tobe16, 2), (.tobe32, 4), (.tobe64, 8)] ∧ Memory.wf State.reset.buf := by decide
theorem witness_FrombeReadsBigEndian :
    (e1 9).blen.toNat < (e1 9).arg1.toInt + 2 ∧ (e1 (-1)).arg1.toInt < 0 ∧ (e1 8).blen.toNat ≤ (e1 8).bufBytes ∧
    (e1 8).arg1.toInt = (8 : Nat) ∧ 8 + 2 ≤ (e1 8).blen.toNat := by decide
theorem witness_ReferenceFunctionsOfEndian :
    [(1 : Byte), 2, 3, 4].length % 2 = 0 ∧ [(1 : Byte), 2, 3].length % 2 ≠ 0 ∧
    [(1 : Byte), 2, 3, 4, 5, 6, 7, 8].length = 8 ∧ [(1 : Byte), 2, 3, 4, 5, 6, 7, 8].Nodup := by decide

/-- A free device that gives one byte, then takes one. -/
def drawn (n : Nat) : OracleDevice :=
  { answers := List.replicate n { read := .byte 0x05, write := .ok, length := 0 }, pos := 0, held := [],
    seekable := true, closed := false }

theorem witness_TransactionsCounted :
    (nextOf (exec .venc (State.reset.setPort .p0 (.oracle (drawn 1))))).map (fun t => (t.status, t.port .p0)) =
      some (0, .oracle { drawn 0 with pos := 1, held := [(0, 0)] }) ∧
    (nextOf (exec .vdec (State.reset.setPort .p1 (.oracle (drawn 1))))).map (fun t => (t.status, t.port .p1)) =
      some (0, .oracle { drawn 0 with pos := 1 }) ∧
    (nextOf (exec .rmBit ((rd .msb [] 0 8 0 State.reset).setPort .p2 (.oracle (drawn 1))))).map
      (fun t => (t.status, t.port .p2)) = some (0, .oracle { drawn 0 with pos := 1 }) := by decide
theorem witness_TransactionsCounted_fields :
    (args 0 8).arg1.toInt = (8 : Nat) ∧
    (nextOf (exec .rmBits64 ((rd .msb [] 0 8 0 (args 0 8)).setPort .p2 (.oracle (drawn 1))))).map
      (fun t => (t.status, t.port .p2)) = some (0, .oracle { drawn 0 with pos := 1 }) ∧
    (nextOf (exec .wmRep ((wr .msb [] none 0 0 (args 0 8)).setPort .p3 (.oracle (drawn 1))))).map
      (fun t => (t.status, t.port .p3)) = some (0, .oracle { drawn 0 with pos := 1, held := [(0, 0)] }) := by decide

end Sys2Proof.Tests
end

/-! # What a command can reach (spec/00_scope.md R2)

Each of the nine units works on its own port, its own record and the shared registers, and on nothing else. The
development says this once: an operation is `Confined` to a command when it commutes with every change of what the
command's unit does not see, and keeps what the command does not write. One rule for each way an operation is built,
one lemma for each operation of the units, and every command's pseudocode is confined. The statements about foreign
ports and records, the frame of the commands and the parameters are read off from that. -/

namespace Sys2Proof.Machine

/-! ### A command's pseudocode -/

/-- The pseudocode of a command before its end (R103): `exec` is `finish` of it. -/
def commandRun : Instr → State → Run (Option Word64)
  | .venc => fun s => (writeBytes .p0 (varintBytes s.arg0) s).bind fun _ s1 =>
      .done (some (BitVec.ofNat 64 (varintLen s.arg0))) s1
  | .vencb => fun s => .done (some (BitVec.ofNat 64 (varintBytes s.arg0).length))
      { s with buf := s.buf.store 0 (varintBytes s.arg0), blen := BitVec.ofNat 8 (varintBytes s.arg0).length }
  | .vcnt => fun s => .done (some (BitVec.ofNat 64 (varintLen s.arg0))) s
  | .vdec => fun s => (decodeLoop Config.varintMaxBytes 0 0 s).bind fun v s1 => .done (some v) s1
  | .rmOpen => readerOpen .msb
  | .rmBit => readerBit .msb
  | .rmBits32 => readerBits .msb 32
  | .rmBits64 => readerBits .msb 64
  | .rmGetpos => readerGetpos .msb
  | .rmSetpos => readerSetpos .msb
  | .rmLen => readerLen .msb
  | .rmEos => readerEos .msb
  | .rmClose => readerClose .msb
  | .rlOpen => readerOpen .lsb
  | .rlBit => readerBit .lsb
  | .rlBits32 => readerBits .lsb 32
  | .rlBits64 => readerBits .lsb 64
  | .rlGetpos => readerGetpos .lsb
  | .rlSetpos => readerSetpos .lsb
  | .rlLen => readerLen .lsb
  | .rlEos => readerEos .lsb
  | .rlClose => readerClose .lsb
  | .wmOpen => writerOpen .msb
  | .wmBit => writerBit .msb
  | .wmBits32 => writerBits32 .msb
  | .wmBits64 => writerBits64 .msb
  | .wmRep => writerRep .msb
  | .wmGetpos => writerGetpos .msb
  | .wmLen => writerLen .msb
  | .wmFlush => writerFlush .msb
  | .wmClose => writerClose .msb
  | .wlOpen => writerOpen .lsb
  | .wlBit => writerBit .lsb
  | .wlBits32 => writerBits32 .lsb
  | .wlBits64 => writerBits64 .lsb
  | .wlRep => writerRep .lsb
  | .wlGetpos => writerGetpos .lsb
  | .wlLen => writerLen .lsb
  | .wlFlush => writerFlush .lsb
  | .wlClose => writerClose .lsb
  | .swap16 => fun s => .done (some (zext64 (swapBytes16 (arg0Low16 s)))) s
  | .tobe16 => fun s => toBuffer (bigEndianBytes (arg0Low16 s) 2) s
  | .frombe16 => fromBuffer 2
  | .swap32 => fun s => .done (some (zext64 (swapBytes32 (arg0Low32 s)))) s
  | .tobe32 => fun s => toBuffer (bigEndianBytes (arg0Low32 s) 4) s
  | .frombe32 => fromBuffer 4
  | .swap64 => fun s => .done (some (swapBytes64 s.arg0)) s
  | .tobe64 => fun s => toBuffer (bigEndianBytes s.arg0 8) s
  | .frombe64 => fromBuffer 8

theorem exec_eq_finish (i : Instr) (s : State) : exec i s = finish (commandRun i s) := by
  cases i <;> rfl

/-! ### The end of a command and the ports -/

theorem port_eq_of_ports_eq {s t : State} (h : t.ports = s.ports) (p : Port) : t.port p = s.port p := by
  cases p <;> simp [State.port, h]

@[simp] theorem port_succeed (v : Option Word64) (s : State) (p : Port) : (succeed v s).port p = s.port p :=
  port_eq_of_ports_eq (succeed_ports v s) p

@[simp] theorem port_raiseError (e : ErrorKind) (s : State) (p : Port) : (raiseError e s).port p = s.port p :=
  port_eq_of_ports_eq (raiseError_ports e s) p

theorem succeed_setPort (v : Option Word64) (s : State) (p : Port) (d : Device) :
    succeed v (s.setPort p d) = (succeed v s).setPort p d := by cases v <;> cases p <;> rfl

theorem succeed_setReader (v : Option Word64) (s : State) (o : BitOrder) (u : BitUnit) :
    succeed v (s.setReader o u) = (succeed v s).setReader o u := by cases v <;> cases o <;> rfl

theorem succeed_setWriter (v : Option Word64) (s : State) (o : BitOrder) (u : BitUnit) :
    succeed v (s.setWriter o u) = (succeed v s).setWriter o u := by cases v <;> cases o <;> rfl

theorem raiseError_setPort (e : ErrorKind) (s : State) (p : Port) (d : Device) :
    raiseError e (s.setPort p d) = (raiseError e s).setPort p d := by cases p <;> rfl

theorem raiseError_setReader (e : ErrorKind) (s : State) (o : BitOrder) (u : BitUnit) :
    raiseError e (s.setReader o u) = (raiseError e s).setReader o u := by cases o <;> rfl

theorem raiseError_setWriter (e : ErrorKind) (s : State) (o : BitOrder) (u : BitUnit) :
    raiseError e (s.setWriter o u) = (raiseError e s).setWriter o u := by cases o <;> rfl

theorem setReader_comm (s : State) {o q : BitOrder} (u v : BitUnit) (h : o ≠ q) :
    (s.setReader o u).setReader q v = (s.setReader q v).setReader o u := by
  cases o <;> cases q <;> first | rfl | exact absurd rfl h

theorem setWriter_comm (s : State) {o q : BitOrder} (u v : BitUnit) (h : o ≠ q) :
    (s.setWriter o u).setWriter q v = (s.setWriter q v).setWriter o u := by
  cases o <;> cases q <;> first | rfl | exact absurd rfl h

theorem setReader_setWriter (s : State) (o q : BitOrder) (u v : BitUnit) :
    (s.setWriter q v).setReader o u = (s.setReader o u).setWriter q v := by cases o <;> cases q <;> rfl

theorem errorCode_ne_zero (e : ErrorKind) : errorCode e ≠ 0 := by cases e <;> decide

/-! ### Changes a command does not see -/

/-- TOBEn's and VENCB's result put into `BUF` from index 0, `BLEN` its length. -/
def State.storeBytes (s : State) (bs : List Byte) : State :=
  { s with buf := s.buf.store 0 bs, blen := BitVec.ofNat 8 bs.length }

/-- A change of the state that a command's unit neither sees nor undoes: it keeps the operands, the byte buffer, and
the unit's own port and record, and commutes with every update the unit makes. -/
structure Foreign (i : Instr) (f : State → State) : Prop where
  arg0 : ∀ s, (f s).arg0 = s.arg0
  arg1 : ∀ s, (f s).arg1 = s.arg1
  blen : ∀ s, (f s).blen = s.blen
  buf : ∀ s, (f s).buf = s.buf
  bufBytes : ∀ s, (f s).bufBytes = s.bufBytes
  port : ∀ {p}, unitPort i.unit = some p → ∀ s, (f s).port p = s.port p
  reader : ∀ {o}, i.unit = readerUnit o → ∀ s, (f s).reader o = s.reader o
  writer : ∀ {o}, i.unit = writerUnit o → ∀ s, (f s).writer o = s.writer o
  setPort : ∀ {p}, unitPort i.unit = some p → ∀ s d, (f s).setPort p d = f (s.setPort p d)
  setReader : ∀ {o}, i.unit = readerUnit o → ∀ s u, (f s).setReader o u = f (s.setReader o u)
  setWriter : ∀ {o}, i.unit = writerUnit o → ∀ s u, (f s).setWriter o u = f (s.setWriter o u)
  storeBytes : ∀ s bs, (f s).storeBytes bs = f (s.storeBytes bs)
  succeed : ∀ v s, succeed v (f s) = f (succeed v s)
  raiseError : ∀ e s, raiseError e (f s) = f (raiseError e s)

/-- Another device on a port that is not the unit's. -/
theorem foreign_setPort {i : Instr} {p : Port} (h : unitPort i.unit ≠ some p) (d : Device) :
    Foreign i fun s => s.setPort p d where
  arg0 s := setPort_arg0 s p d
  arg1 s := setPort_arg1 s p d
  blen s := setPort_blen s p d
  buf s := setPort_buf s p d
  bufBytes s := setPort_bufBytes s p d
  port hq s := port_setPort_other s d fun he => h (he ▸ hq)
  reader _ s := reader_setPort s p d _
  writer _ s := writer_setPort s p d _
  setPort hq s e := setPort_comm s d e fun he => h (he ▸ hq)
  setReader _ s u := (setPort_setReader s p d _ u).symm
  setWriter _ s u := (setPort_setWriter s p d _ u).symm
  storeBytes s bs := by cases p <;> rfl
  succeed v s := succeed_setPort v s p d
  raiseError e s := raiseError_setPort e s p d

/-- Another record of a reader that is not the unit. -/
theorem foreign_setReader {i : Instr} {o : BitOrder} (h : i.unit ≠ readerUnit o) (u : BitUnit) :
    Foreign i fun s => s.setReader o u where
  arg0 s := setReader_arg0 s o u
  arg1 s := setReader_arg1 s o u
  blen s := setReader_blen s o u
  buf s := setReader_buf s o u
  bufBytes s := setReader_bufBytes s o u
  port _ s := port_setReader s o u _
  reader hq s := reader_setReader_other s u fun he => h (he ▸ hq)
  writer _ s := writer_setReader s o _ u
  setPort _ s d := setPort_setReader s _ d o u
  setReader hq s v := setReader_comm s u v fun he => h (he ▸ hq)
  setWriter _ s v := (setReader_setWriter s o _ u v).symm
  storeBytes s bs := by cases o <;> rfl
  succeed v s := succeed_setReader v s o u
  raiseError e s := raiseError_setReader e s o u

/-- Another record of a writer that is not the unit. -/
theorem foreign_setWriter {i : Instr} {o : BitOrder} (h : i.unit ≠ writerUnit o) (u : BitUnit) :
    Foreign i fun s => s.setWriter o u where
  arg0 s := setWriter_arg0 s o u
  arg1 s := setWriter_arg1 s o u
  blen s := setWriter_blen s o u
  buf s := setWriter_buf s o u
  bufBytes s := setWriter_bufBytes s o u
  port _ s := port_setWriter s o u _
  reader _ s := reader_setWriter s o _ u
  writer hq s := writer_setWriter_other s u fun he => h (he ▸ hq)
  setPort _ s d := setPort_setWriter s _ d o u
  setReader _ s v := setReader_setWriter s _ o v u
  setWriter hq s v := setWriter_comm s u v fun he => h (he ▸ hq)
  storeBytes s bs := by cases o <;> rfl
  succeed v s := succeed_setWriter v s o u
  raiseError e s := raiseError_setWriter e s o u

/-! ### What a command's pseudocode keeps -/

/-- The commands that write `BUF` and `BLEN` (R28, R29). -/
abbrev bufferCommands : List Instr := [.vencb, .tobe16, .tobe32, .tobe64]

/-- What the pseudocode of a command keeps from its first state to a later one, whatever its unit. -/
structure Kept (i : Instr) (s t : State) : Prop where
  arg0 : t.arg0 = s.arg0
  arg1 : t.arg1 = s.arg1
  res : t.res = s.res
  bufExtra : t.bufExtra = s.bufExtra
  script : t.script = s.script
  txIndex : t.txIndex = s.txIndex
  rdata : t.rdata = s.rdata
  buffer : i ∉ bufferCommands → t.blen = s.blen ∧ t.buf = s.buf
  seekable : ∀ p, (t.port p).seekable = (s.port p).seekable

theorem Kept.refl (i : Instr) (s : State) : Kept i s s :=
  ⟨rfl, rfl, rfl, rfl, rfl, rfl, rfl, fun _ => ⟨rfl, rfl⟩, fun _ => rfl⟩

theorem Kept.trans {i : Instr} {s t u : State} (h : Kept i s t) (k : Kept i t u) : Kept i s u where
  arg0 := k.arg0.trans h.arg0
  arg1 := k.arg1.trans h.arg1
  res := k.res.trans h.res
  bufExtra := k.bufExtra.trans h.bufExtra
  script := k.script.trans h.script
  txIndex := k.txIndex.trans h.txIndex
  rdata := k.rdata.trans h.rdata
  buffer hi := ⟨(k.buffer hi).1.trans (h.buffer hi).1, (k.buffer hi).2.trans (h.buffer hi).2⟩
  seekable p := (k.seekable p).trans (h.seekable p)

theorem seekable_setPort {s : State} {p : Port} {d : Device} (h : d.seekable = (s.port p).seekable) (q : Port) :
    ((s.setPort p d).port q).seekable = (s.port q).seekable := by
  by_cases hq : q = p
  · rw [hq, port_setPort_same, h]
  · rw [port_setPort_other s d hq]

theorem kept_setPort (i : Instr) {s : State} {p : Port} {d : Device} (h : d.seekable = (s.port p).seekable) :
    Kept i s (s.setPort p d) := by
  constructor <;> simp [seekable_setPort h]

theorem kept_setReader (i : Instr) (s : State) (o : BitOrder) (u : BitUnit) : Kept i s (s.setReader o u) := by
  constructor <;> simp

theorem kept_setWriter (i : Instr) (s : State) (o : BitOrder) (u : BitUnit) : Kept i s (s.setWriter o u) := by
  constructor <;> simp

theorem kept_storeBytes {i : Instr} (hi : i ∈ bufferCommands) (s : State) (bs : List Byte) :
    Kept i s (s.storeBytes bs) :=
  ⟨rfl, rfl, rfl, rfl, rfl, rfl, rfl, fun h => absurd hi h, fun p => by cases p <;> rfl⟩

/-! ### Confined operations -/

/-- A run with its state changed. -/
def Run.map {α : Type} (f : State → State) : Run α → Run α
  | .done a s => .done a (f s)
  | .raised e s => .raised e (f s)
  | .stuck x => .stuck x

/-- The state a run ends in, by success or by error, satisfies `P`. -/
def Run.EndsIn {α : Type} (P : State → Prop) : Run α → Prop
  | .done _ s => P s
  | .raised _ s => P s
  | .stuck _ => True

theorem Run.EndsIn.imp {α : Type} {P Q : State → Prop} (h : ∀ s, P s → Q s) {r : Run α} (hr : r.EndsIn P) :
    r.EndsIn Q := by
  cases r with
  | done a s => exact h s hr
  | raised e s => exact h s hr
  | stuck x => trivial

/-- The operation reaches no more than command `i` may: it does not depend on what is foreign to the command's unit,
and it keeps what the command does not write. -/
structure Confined (i : Instr) {α : Type} (r : State → Run α) : Prop where
  commutes : ∀ {f}, Foreign i f → ∀ s, r (f s) = (r s).map f
  keeps : ∀ s, (r s).EndsIn (Kept i s)

/-- A part of the state that the command may read. -/
def Visible (i : Instr) {β : Type} (v : State → β) : Prop := ∀ f, Foreign i f → ∀ s, v (f s) = v s

theorem visible_arg0 {i : Instr} : Visible i State.arg0 := fun _ hf => hf.arg0
theorem visible_arg1Signed {i : Instr} : Visible i arg1Signed := fun _ hf s => congrArg BitVec.toInt (hf.arg1 s)
theorem visible_reader {i : Instr} {o : BitOrder} (h : i.unit = readerUnit o) : Visible i (State.reader · o) :=
  fun _ hf => hf.reader h
theorem visible_writer {i : Instr} {o : BitOrder} (h : i.unit = writerUnit o) : Visible i (State.writer · o) :=
  fun _ hf => hf.writer h

section Rules

variable {i : Instr} {α β : Type}

theorem Confined.done (a : α) : Confined i fun s => .done a s :=
  ⟨fun _ _ => rfl, fun s => Kept.refl i s⟩

theorem Confined.raised (e : ErrorKind) : Confined i fun s => (.raised e s : Run α) :=
  ⟨fun _ _ => rfl, fun s => Kept.refl i s⟩

/-- The next line of the pseudocode. -/
theorem Confined.bind {r : State → Run α} {g : α → State → Run β} (hr : Confined i r) (hg : ∀ a, Confined i (g a)) :
    Confined i fun s => (r s).bind g where
  commutes hf s := by
    rw [hr.commutes hf s]
    cases r s with
    | done a t => exact (hg a).commutes hf t
    | raised e t => rfl
    | stuck x => rfl
  keeps s := by
    have h := hr.keeps s
    cases hs : r s with
    | done a t =>
      rw [hs] at h
      exact .imp (fun _ k => Kept.trans h k) ((hg a).keeps t)
    | raised e t => rw [hs] at h; exact h
    | stuck x => trivial

/-- A read of a visible part of the state. -/
theorem Confined.look {v : State → β} (hv : Visible i v) (k : β → State → Run α) (hk : ∀ b, Confined i (k b)) :
    Confined i fun s => k (v s) s where
  commutes hf s := by rw [hv _ hf s]; exact (hk _).commutes hf s
  keeps s := (hk _).keeps s

/-- A branch on a visible part of the state. -/
theorem Confined.branch {v : State → β} (hv : Visible i v) (P : β → Prop) [DecidablePred P] {r q : State → Run α}
    (hr : Confined i r) (hq : Confined i q) : Confined i fun s => if P (v s) then r s else q s := by
  refine .look hv (fun b s => if P b then r s else q s) fun b => ?_
  by_cases hb : P b
  · simpa only [if_pos hb] using hr
  · simpa only [if_neg hb] using hq

/-- A transaction on the unit's own port. -/
theorem Confined.ask {p : Port} (hp : unitPort i.unit = some p) (g : Device → Option (α × Device))
    (hg : ∀ {d a d'}, g d = some (a, d') → d'.seekable = d.seekable) :
    Confined i fun s => answered p s (g (s.port p)) where
  commutes hf s := by
    rw [hf.port hp s]
    cases g (s.port p) with
    | none => rfl
    | some x => exact congrArg (Run.done x.1) (hf.setPort hp s x.2)
  keeps s := by
    cases h : g (s.port p) with
    | none => trivial
    | some x => exact kept_setPort i (hg h)

/-- What runs after an update that the command may make. -/
theorem Confined.after {w : State → State} {r : State → Run α} (hw : ∀ {f}, Foreign i f → ∀ s, w (f s) = f (w s))
    (hk : ∀ s, Kept i s (w s)) (hr : Confined i r) : Confined i fun s => r (w s) :=
  Confined.bind (r := fun s => .done () (w s)) (g := fun _ => r)
    ⟨fun hf s => congrArg (Run.done ()) (hw hf s), fun s => hk s⟩ fun _ => hr

/-- What runs after an update of the unit's own reader record. -/
theorem Confined.setReader {o : BitOrder} (h : i.unit = readerUnit o) (u : BitUnit) {r : State → Run α}
    (hr : Confined i r) : Confined i fun s => r (s.setReader o u) :=
  .after (fun hf s => hf.setReader h s u) (fun s => kept_setReader i s o u) hr

/-- What runs after an update of the unit's own writer record. -/
theorem Confined.setWriter {o : BitOrder} (h : i.unit = writerUnit o) (u : BitUnit) {r : State → Run α}
    (hr : Confined i r) : Confined i fun s => r (s.setWriter o u) :=
  .after (fun hf s => hf.setWriter h s u) (fun s => kept_setWriter i s o u) hr

/-- A store to the byte buffer, by a command that has one. -/
theorem Confined.storeBytes (h : i ∈ bufferCommands) (a : α) (bs : List Byte) :
    Confined i fun s => .done a (s.storeBytes bs) :=
  .after (w := fun s => s.storeBytes bs) (fun hf s => hf.storeBytes s bs) (fun s => kept_storeBytes h s bs) (.done a)

end Rules

/-! ### The port primitives and the checks are confined -/

section Operations

variable {i : Instr}

theorem confined_srcRead {p : Port} (hp : unitPort i.unit = some p) : Confined i (srcRead p) :=
  .ask hp Device.srcRead Device.srcRead_seekable

theorem confined_snkWrite {p : Port} (hp : unitPort i.unit = some p) (b : Byte) : Confined i (snkWrite p b) := by
  refine .bind (.ask hp (Device.snkWrite b) Device.snkWrite_seekable) fun a => ?_
  cases a with
  | ok => exact .done ()
  | endOfStream => exact .raised .endOfStream
  | ioError => exact .raised .ioError

theorem confined_getPos {p : Port} (hp : unitPort i.unit = some p) : Confined i (getPos p) := by
  refine .bind (.ask hp Device.getPos Device.getPos_seekable) fun a => ?_
  cases a with
  | value v => exact .done v
  | notSeekable => exact .raised .notSupported

theorem confined_setPos {p : Port} (hp : unitPort i.unit = some p) (v : Word64) : Confined i (setPos p v) := by
  refine .bind (.ask hp (Device.setPos v) Device.setPos_seekable) fun a => ?_
  cases a with
  | ok => exact .done ()
  | notSeekable => exact .raised .notSupported

theorem confined_getLen {p : Port} (hp : unitPort i.unit = some p) : Confined i (getLen p) := by
  refine .bind (.ask hp Device.getLen Device.getLen_seekable) fun a => ?_
  cases a with
  | value v => exact .done v
  | notSeekable => exact .raised .notSupported

theorem confined_portClose {p : Port} (hp : unitPort i.unit = some p) {α : Type} (a : α) :
    Confined i fun s => .done a (portClose p s) :=
  .ask hp (fun d => some (a, d.close)) fun h => by
    obtain ⟨-, rfl⟩ := Prod.mk.inj (Option.some.inj h)
    exact Device.close_seekable _

theorem confined_gate {v : State → BitUnit} (hv : Visible i v) : Confined i fun s => gate (v s) s := by
  refine .look hv gate fun u => ?_
  unfold gate
  cases u.att with
  | true => exact .done ()
  | false => exact .raised .illegalState

theorem confined_countOperand (limit : Nat) : Confined i (countOperand limit) := by
  refine .look visible_arg1Signed
    (fun n s => match legalCount n limit with | some k => .done k s | none => .raised .invalidArgument s)
    fun n => ?_
  cases legalCount n limit with
  | some k => exact .done k
  | none => exact .raised .invalidArgument

/-! ### The readers are confined -/

theorem unitPort_of_readerUnit {o : BitOrder} (h : i.unit = readerUnit o) : unitPort i.unit = some (readPort o) := by
  rw [h]; cases o <;> rfl

theorem unitPort_of_writerUnit {o : BitOrder} (h : i.unit = writerUnit o) : unitPort i.unit = some (writePort o) := by
  rw [h]; cases o <;> rfl

section Reader

variable {o : BitOrder}

theorem confined_takeBit (h : i.unit = readerUnit o) : Confined i (takeBit o) :=
  .look (visible_reader h) (fun u s => .done (streamBit o u.buf u.cur.val) (s.setReader o { u with cur := u.cur + 1 }))
    fun _ => .setReader h _ (.done _)

theorem confined_refill (h : i.unit = readerUnit o) (k : Cursor) : Confined i (refill o k) := by
  refine .bind (confined_srcRead (unitPort_of_readerUnit h)) fun a => ?_
  cases a with
  | byte b =>
    exact .look (visible_reader h) (fun u s => .done () (s.setReader o { u with buf := b, cur := k }))
      fun u => .setReader h _ (.done ())
  | eof => exact .raised .endOfStream
  | ioError => exact .raised .ioError

theorem confined_readBit (h : i.unit = readerUnit o) : Confined i (readBit o) :=
  .branch (visible_reader h) (fun u => u.cur = 8)
    (.bind (confined_refill h 0) fun _ => confined_takeBit h) (confined_takeBit h)

theorem confined_readBits (h : i.unit = readerUnit o) {w : Nat} (n : Nat) (r : BitVec w) :
    Confined i (readBits o n r) := by
  induction n generalizing r with
  | zero => exact .done r
  | succ n ih => exact .bind (confined_readBit h) fun b => ih (shiftInBit r b)

theorem confined_readerOpen (h : i.unit = readerUnit o) : Confined i (readerOpen o) :=
  .setReader h openedReader (.done none)

theorem confined_readerBit (h : i.unit = readerUnit o) : Confined i (readerBit o) :=
  .bind (confined_gate (visible_reader h)) fun _ => .bind (confined_readBit h) fun b => .done (some (bitResult b))

theorem confined_readerBits (h : i.unit = readerUnit o) (w : Nat) : Confined i (readerBits o w) :=
  .bind (confined_gate (visible_reader h)) fun _ =>
    .bind (confined_countOperand w) fun n =>
      .bind (confined_readBits h n 0) fun r => .done (some (zext64 r))

theorem confined_readerGetpos (h : i.unit = readerUnit o) : Confined i (readerGetpos o) :=
  .bind (confined_gate (visible_reader h)) fun _ =>
    .bind (confined_getPos (unitPort_of_readerUnit h)) fun p =>
      .look (visible_reader h) (fun u s => .done (some (readerBitPos u p)) s) fun _ => .done _

/-- `SETPOS` after the device has moved: the lookahead dropped and, inside a byte, filled again (R148). -/
theorem confined_reposition (h : i.unit = readerUnit o) (v : Word64) :
    Confined i fun s =>
      if seekSkip v = 0 then (.done none s : Run (Option Word64))
      else (refill o (seekSkip v) s).bind fun _ s1 => .done none s1 := by
  by_cases hv : seekSkip v = 0
  · simpa only [if_pos hv] using .done none
  · simpa only [if_neg hv] using .bind (confined_refill h (seekSkip v)) fun _ => .done none

theorem confined_readerSetpos (h : i.unit = readerUnit o) : Confined i (readerSetpos o) := by
  refine .bind (confined_gate (visible_reader h)) fun _ => .bind ?_ fun _ => ?_
  · exact .look visible_arg0 (fun v => setPos (readPort o) (v >>> 3)) fun v =>
      confined_setPos (unitPort_of_readerUnit h) (v >>> 3)
  · exact .look (visible_reader h) _ fun u =>
      .setReader h { u with cur := 8 } (.look visible_arg0 _ fun v => confined_reposition h v)

theorem confined_readerLen (h : i.unit = readerUnit o) : Confined i (readerLen o) :=
  .bind (confined_gate (visible_reader h)) fun _ =>
    .bind (confined_getLen (unitPort_of_readerUnit h)) fun n => .done (some (8#64 * n))

theorem confined_readerEos (h : i.unit = readerUnit o) : Confined i (readerEos o) := by
  refine .bind (confined_gate (visible_reader h)) fun _ =>
    .branch (visible_reader h) (fun u => u.cur = 8) ?_ (.done (some 0))
  refine .bind (confined_srcRead (unitPort_of_readerUnit h)) fun a => ?_
  cases a with
  | byte b =>
    exact .look (visible_reader h) (fun u s => .done (some 0) (s.setReader o { u with buf := b, cur := 0 }))
      fun u => .setReader h _ (.done (some 0))
  | eof => exact .done (some 1)
  | ioError => exact .raised .ioError

theorem confined_readerClose (h : i.unit = readerUnit o) : Confined i (readerClose o) :=
  .bind (confined_gate (visible_reader h)) fun _ =>
    .look (visible_reader h) (fun u s => .done none (portClose (readPort o) (s.setReader o { u with att := false })))
      fun _ => .setReader h _ (confined_portClose (unitPort_of_readerUnit h) none)

end Reader

/-! ### The writers are confined -/

section Writer

variable {o : BitOrder}

theorem confined_emit (h : i.unit = writerUnit o) : Confined i (emit o) := by
  refine .bind ?_ fun _ => ?_
  · exact .look (visible_writer h) (fun u => snkWrite (writePort o) u.buf) fun u =>
      confined_snkWrite (unitPort_of_writerUnit h) u.buf
  · exact .look (visible_writer h) (fun u s => .done () (s.setWriter o { u with buf := 0, cur := 0 }))
      fun _ => .setWriter h _ (.done ())

theorem confined_placeBit (h : i.unit = writerUnit o) (v : Bool) : Confined i (placeBit o v) :=
  .look (visible_writer h) _ fun u =>
    .setWriter h { u with buf := putStreamBit o u.buf u.cur.val v, cur := u.cur + 1 }
      (.branch (visible_writer h) (fun u => u.cur = 8) (confined_emit h) (.done ()))

theorem confined_writeBit (h : i.unit = writerUnit o) (v : Bool) : Confined i (writeBit o v) :=
  .branch (visible_writer h) (fun u => u.cur = 8)
    (.bind (confined_emit h) fun _ => confined_placeBit h v) (confined_placeBit h v)

theorem confined_writeField (h : i.unit = writerUnit o) (field : Word64) (n : Nat) :
    Confined i (writeField o field n) := by
  induction n with
  | zero => exact .done ()
  | succ n ih => exact .bind (confined_writeBit h (field.getLsbD n)) fun _ => ih

theorem confined_writeRepeat (h : i.unit = writerUnit o) (v : Bool) (n : Nat) : Confined i (writeRepeat o v n) := by
  induction n with
  | zero => exact .done ()
  | succ n ih => exact .bind (confined_writeBit h v) fun _ => ih

theorem confined_flushBits (h : i.unit = writerUnit o) : Confined i (flushBits o) :=
  .branch (visible_writer h) (fun u => u.cur = 0) (.done ()) (confined_emit h)

theorem confined_writerOpen (h : i.unit = writerUnit o) : Confined i (writerOpen o) :=
  .setWriter h openedWriter (.done none)

theorem confined_writerBit (h : i.unit = writerUnit o) : Confined i (writerBit o) :=
  .bind (confined_gate (visible_writer h)) fun _ =>
    .bind (.look visible_arg0 (fun a => writeBit o (a.getLsbD 0)) fun a => confined_writeBit h (a.getLsbD 0))
      fun _ => .done none

theorem confined_writerBits32 (h : i.unit = writerUnit o) : Confined i (writerBits32 o) :=
  .bind (confined_gate (visible_writer h)) fun _ =>
    .bind (confined_countOperand 31) fun n =>
      .bind (.look visible_arg0 (fun a => writeField o (zext64 (a.extractLsb' 0 32)) n) fun _ =>
        confined_writeField h _ n) fun _ => .done none

theorem confined_writerBits64 (h : i.unit = writerUnit o) : Confined i (writerBits64 o) :=
  .bind (confined_gate (visible_writer h)) fun _ =>
    .bind (confined_countOperand 63) fun n =>
      .bind (.look visible_arg0 (fun a => writeField o a n) fun a => confined_writeField h a n) fun _ => .done none

theorem confined_writerRep (h : i.unit = writerUnit o) : Confined i (writerRep o) :=
  .bind (confined_gate (visible_writer h)) fun _ =>
    .bind (confined_countOperand repLimit) fun n =>
      .bind (.look visible_arg0 (fun a => writeRepeat o (a.getLsbD 0) n) fun _ => confined_writeRepeat h _ n)
        fun _ => .done none

theorem confined_writerGetpos (h : i.unit = writerUnit o) : Confined i (writerGetpos o) :=
  .bind (confined_gate (visible_writer h)) fun _ =>
    .bind (confined_getPos (unitPort_of_writerUnit h)) fun p =>
      .look (visible_writer h) (fun u s => .done (some (writerBitPos u p)) s) fun _ => .done _

theorem confined_writerLen (h : i.unit = writerUnit o) : Confined i (writerLen o) :=
  .bind (confined_gate (visible_writer h)) fun _ =>
    .bind (confined_getLen (unitPort_of_writerUnit h)) fun n =>
      .look (visible_writer h) (fun u s => .done (some (writerBitPos u n)) s) fun _ => .done _

theorem confined_release (h : i.unit = writerUnit o) : Confined i (release o) :=
  .bind (confined_flushBits h) fun _ =>
    .look (visible_writer h) (fun u s => .done () (s.setWriter o { u with att := false }))
      fun _ => .setWriter h _ (.done ())

theorem confined_writerFlush (h : i.unit = writerUnit o) : Confined i (writerFlush o) :=
  .bind (confined_gate (visible_writer h)) fun _ => .bind (confined_release h) fun _ => .done none

theorem confined_writerClose (h : i.unit = writerUnit o) : Confined i (writerClose o) :=
  .bind (confined_gate (visible_writer h)) fun _ =>
    .bind (confined_release h) fun _ => confined_portClose (unitPort_of_writerUnit h) none

end Writer

/-! ### The varint and endian units are confined -/

theorem confined_writeBytes {p : Port} (hp : unitPort i.unit = some p) (bs : List Byte) :
    Confined i (writeBytes p bs) := by
  induction bs with
  | nil => exact .done ()
  | cons b bs ih => exact .bind (confined_snkWrite hp b) fun _ => ih

theorem confined_decodeLoop (hp : unitPort i.unit = some .p1) (fuel k : Nat) (acc : Word64) :
    Confined i (decodeLoop fuel k acc) := by
  induction fuel generalizing k acc with
  | zero => exact .raised .overflowError
  | succ fuel ih =>
    refine .bind (confined_srcRead hp) fun a => ?_
    cases a with
    | byte b =>
      by_cases hb : continues b = true
      · simpa only [if_pos hb] using ih (k + 1) _
      · simpa only [if_neg hb] using .done _
    | eof => exact .raised .endOfStream
    | ioError => exact .raised .ioError

theorem confined_toBuffer (h : i ∈ bufferCommands) (bs : List Byte) : Confined i (toBuffer bs) :=
  .storeBytes h none bs

theorem confined_fromBuffer (m : Nat) : Confined i (fromBuffer m) where
  commutes hf s := by
    simp only [fromBuffer, visible_arg1Signed _ hf s, hf.blen, hf.buf, hf.bufBytes]
    split_ifs <;> rfl
  keeps s := by
    unfold fromBuffer
    split
    · exact Kept.refl i s
    · split
      · trivial
      · exact Kept.refl i s

/-- A result computed from `ARG0` alone. -/
theorem confined_ofArg0 {α : Type} (g : Word64 → α) : Confined i fun s => .done (g s.arg0) s :=
  .look visible_arg0 (fun a s => .done (g a) s) fun a => .done (g a)

end Operations

/-- Every command is confined to its unit: its own port, its own record, the operands and the byte buffer. -/
theorem confined_commandRun (i : Instr) : Confined i (commandRun i) := by
  cases i with
  | venc =>
    exact .look visible_arg0 _ fun a =>
      .bind (confined_writeBytes rfl (varintBytes a)) fun _ => .done (some (BitVec.ofNat 64 (varintLen a)))
  | vencb =>
    exact .look visible_arg0 _ fun a =>
      .storeBytes (by decide) (some (BitVec.ofNat 64 (varintBytes a).length)) (varintBytes a)
  | vcnt => exact confined_ofArg0 fun a => some (BitVec.ofNat 64 (varintLen a))
  | vdec => exact .bind (confined_decodeLoop rfl _ 0 0) fun v => .done (some v)
  | rmOpen | rlOpen => exact confined_readerOpen rfl
  | rmBit | rlBit => exact confined_readerBit rfl
  | rmBits32 | rlBits32 => exact confined_readerBits rfl 32
  | rmBits64 | rlBits64 => exact confined_readerBits rfl 64
  | rmGetpos | rlGetpos => exact confined_readerGetpos rfl
  | rmSetpos | rlSetpos => exact confined_readerSetpos rfl
  | rmLen | rlLen => exact confined_readerLen rfl
  | rmEos | rlEos => exact confined_readerEos rfl
  | rmClose | rlClose => exact confined_readerClose rfl
  | wmOpen | wlOpen => exact confined_writerOpen rfl
  | wmBit | wlBit => exact confined_writerBit rfl
  | wmBits32 | wlBits32 => exact confined_writerBits32 rfl
  | wmBits64 | wlBits64 => exact confined_writerBits64 rfl
  | wmRep | wlRep => exact confined_writerRep rfl
  | wmGetpos | wlGetpos => exact confined_writerGetpos rfl
  | wmLen | wlLen => exact confined_writerLen rfl
  | wmFlush | wlFlush => exact confined_writerFlush rfl
  | wmClose | wlClose => exact confined_writerClose rfl
  | swap16 => exact confined_ofArg0 fun a => some (zext64 (swapBytes16 (a.extractLsb' 0 16)))
  | swap32 => exact confined_ofArg0 fun a => some (zext64 (swapBytes32 (a.extractLsb' 0 32)))
  | swap64 => exact confined_ofArg0 fun a => some (swapBytes64 a)
  | tobe16 =>
    exact .look visible_arg0 (fun a => toBuffer (bigEndianBytes (a.extractLsb' 0 16) 2)) fun _ =>
      confined_toBuffer (by decide) _
  | tobe32 =>
    exact .look visible_arg0 (fun a => toBuffer (bigEndianBytes (a.extractLsb' 0 32) 4)) fun _ =>
      confined_toBuffer (by decide) _
  | tobe64 =>
    exact .look visible_arg0 (fun a => toBuffer (bigEndianBytes a 8)) fun _ => confined_toBuffer (by decide) _
  | frombe16 => exact confined_fromBuffer 2
  | frombe32 => exact confined_fromBuffer 4
  | frombe64 => exact confined_fromBuffer 8

/-! ### Foreign ports and records -/

theorem finish_map {i : Instr} {f : State → State} (hf : Foreign i f) (r : Run (Option Word64)) :
    finish (r.map f) = mapNext f (finish r) := by
  cases r with
  | done v s => exact congrArg Host.Outcome.next (hf.succeed v s)
  | raised e s => exact congrArg Host.Outcome.next (hf.raiseError e s)
  | stuck x => rfl

/-- A command's outcome does not depend on what is foreign to its unit. -/
theorem exec_foreign {i : Instr} {f : State → State} (hf : Foreign i f) (s : State) :
    exec i (f s) = mapNext f (exec i s) := by
  rw [exec_eq_finish, exec_eq_finish, (confined_commandRun i).commutes hf, finish_map hf]

/-- A foreign change that leaves the first state alone leaves the next state alone. -/
theorem exec_next_fixed {i : Instr} {f : State → State} (hf : Foreign i f) {s t : State} (hs : f s = s)
    (h : exec i s = .next t) : f t = t := by
  have hmap := exec_foreign hf s
  rw [hs, h] at hmap
  exact (Host.Outcome.next.inj hmap).symm

/-- Settles O15: a device on another port is foreign to the command. -/
theorem otherPortsIrrelevant : Obligations.OtherPortsIrrelevant :=
  fun _ s _ d hp => exec_foreign (foreign_setPort hp d) s

/-- Settles O16: another unit's record is foreign to the command. -/
theorem otherRecordsIrrelevant : Obligations.OtherRecordsIrrelevant :=
  fun _ s _ u => ⟨fun hr => exec_foreign (foreign_setReader hr u) s, fun hw => exec_foreign (foreign_setWriter hw u) s⟩

/-- R51: a device on another port stays as it is. -/
theorem exec_keeps_port {i : Instr} {s t : State} (h : exec i s = .next t) {p : Port}
    (hp : unitPort i.unit ≠ some p) : t.port p = s.port p := by
  have ht := exec_next_fixed (foreign_setPort hp (s.port p)) (setPort_port s p) h
  rw [← ht, port_setPort_same]

theorem exec_keeps_reader {i : Instr} {s t : State} (h : exec i s = .next t) {o : BitOrder}
    (ho : i.unit ≠ readerUnit o) : t.reader o = s.reader o := by
  have ht := exec_next_fixed (foreign_setReader ho (s.reader o)) (setReader_reader s o) h
  rw [← ht, reader_setReader_same]

theorem exec_keeps_writer {i : Instr} {s t : State} (h : exec i s = .next t) {o : BitOrder}
    (ho : i.unit ≠ writerUnit o) : t.writer o = s.writer o := by
  have ht := exec_next_fixed (foreign_setWriter ho (s.writer o)) (setWriter_writer s o) h
  rw [← ht, writer_setWriter_same]

/-! ### The parameters -/

/-- Every next state of a command is the end of pseudocode that kept what it must. -/
theorem exec_next_cases {i : Instr} {s t : State} (h : exec i s = .next t) :
    (∃ v u, commandRun i s = .done v u ∧ Kept i s u ∧ t = succeed v u) ∨
      ∃ e u, commandRun i s = .raised e u ∧ Kept i s u ∧ t = raiseError e u := by
  rw [exec_eq_finish] at h
  have hk := (confined_commandRun i).keeps s
  obtain ⟨v, u, hr, ht⟩ | ⟨e, u, hr, ht⟩ := finish_eq_next.mp h
  · rw [hr] at hk
    exact .inl ⟨v, u, hr, hk, ht⟩
  · rw [hr] at hk
    exact .inr ⟨e, u, hr, hk, ht⟩

/-- R9: the parameters that the state holds are the same. -/
def SameParameters (s t : State) : Prop :=
  t.bufBytes = s.bufBytes ∧ ∀ p, (t.port p).seekable = (s.port p).seekable

theorem sameParameters_of_eq {s t : State} (hb : t.bufExtra = s.bufExtra) (hp : t.ports = s.ports) :
    SameParameters s t :=
  ⟨congrArg (fun n => Config.bufBytesMin + n.val) hb, fun p => congrArg _ (port_eq_of_ports_eq hp p)⟩

theorem SameParameters.trans {s t u : State} (h : SameParameters s t) (k : SameParameters t u) :
    SameParameters s u :=
  ⟨k.1.trans h.1, fun p => (k.2 p).trans (h.2 p)⟩

theorem Kept.sameParameters {i : Instr} {s t : State} (h : Kept i s t) : SameParameters s t :=
  ⟨congrArg (fun n => Config.bufBytesMin + n.val) h.bufExtra, h.seekable⟩

theorem exec_sameParameters {i : Instr} {s t : State} (h : exec i s = .next t) : SameParameters s t := by
  obtain ⟨v, u, -, hk, rfl⟩ | ⟨e, u, -, hk, rfl⟩ := exec_next_cases h
  · exact hk.sameParameters.trans (sameParameters_of_eq (succeed_bufExtra v u) (succeed_ports v u))
  · exact hk.sameParameters.trans (sameParameters_of_eq rfl rfl)

theorem issue_sameParameters {c : Byte} {s t : State} (h : issue c s = .next t) : SameParameters s t := by
  unfold issue at h
  split at h
  · exact exec_sameParameters h
  · cases h
    exact sameParameters_of_eq rfl rfl

theorem writeReg_sameParameters {r : Reg} {v : Word64} {s t : State} (h : writeReg r v s = .next t) :
    SameParameters s t := by
  cases r with
  | cmd => exact issue_sameParameters h
  | blen =>
    simp only [writeReg] at h
    split at h
    · cases h
      exact sameParameters_of_eq rfl rfl
    · cases h
  | status | arg0 | arg1 | res | buf =>
    cases h
    exact sameParameters_of_eq rfl rfl

theorem hostWrite_sameParameters {no : Nat} {v : Word64} {s t : State} (h : hostWrite no v s = .next t) :
    SameParameters s t := by
  unfold hostWrite at h
  split at h
  · cases h
  · split at h
    · exact writeReg_sameParameters h
    · cases h

theorem readReg_sameParameters (r : Reg) (s : State) : SameParameters s (readReg r s) := by
  cases r <;> exact sameParameters_of_eq rfl rfl

theorem hostRead_sameParameters {no : Nat} {s t : State} (h : hostRead no s = .next t) : SameParameters s t := by
  unfold hostRead at h
  split at h
  · cases h
  · cases h
    exact readReg_sameParameters _ s

/-- R59(b): the platform cannot change a port's `SEEKABLE`. -/
theorem wire_sameParameters {p : Port} {d : Device} {s t : State} (h : wire p d s = .next t) :
    SameParameters s t := by
  unfold wire at h
  split at h
  · cases h
    exact ⟨setPort_bufBytes s p d, seekable_setPort ‹_›⟩
  · cases h

theorem runEvent_sameParameters {e : Event} {s t : State} (h : runEvent e s = .next t) : SameParameters s t := by
  cases e with
  | host x =>
    cases x with
    | write no v => exact hostWrite_sameParameters h
    | read no => exact hostRead_sameParameters h
  | reset =>
    cases h
    exact sameParameters_of_eq rfl rfl
  | wire p d => exact wire_sameParameters h

/-- Settles O14, by the kinds of event. -/
theorem parametersNeverChange : Obligations.ParametersNeverChange := by
  intro s t h
  unfold step at h
  split at h
  · cases h
    exact sameParameters_of_eq rfl rfl
  · exact (sameParameters_of_eq (t := takeEvent _ s) rfl rfl).trans (runEvent_sameParameters h)

/-! ### The frame of every command -/

/-- The commands of R96 without a scalar result. -/
abbrev resultlessCommands : List Instr :=
  [.rmOpen, .rmSetpos, .rmClose, .rlOpen, .rlSetpos, .rlClose, .wmOpen, .wmBit, .wmBits32, .wmBits64,
    .wmRep, .wmFlush, .wmClose, .wlOpen, .wlBit, .wlBits32, .wlBits64, .wlRep, .wlFlush, .wlClose, .tobe16,
    .tobe32, .tobe64]

/-- A run that, if it succeeds, has no scalar result. -/
def Run.NoResult (r : Run (Option Word64)) : Prop := ∀ v s, r = .done v s → v = none

theorem Run.NoResult.done (s : State) : (Run.done none s).NoResult := fun _ _ h => by cases h; rfl

theorem Run.NoResult.bind {α : Type} {r : Run α} {f : α → State → Run (Option Word64)}
    (hf : ∀ a s, (f a s).NoResult) : (r.bind f).NoResult := fun v t h => by
  obtain ⟨a, s, -, hfa⟩ := Run.bind_eq_done.mp h
  exact hf a s v t hfa

theorem readerSetpos_noResult (o : BitOrder) (s : State) : (readerSetpos o s).NoResult := by
  refine .bind fun _ _ => .bind fun _ s2 => ?_
  dsimp only
  split
  · exact .done _
  · exact .bind fun _ _ => .done _

/-- R96: the pseudocode of a resultless command ends with no result. -/
theorem commandRun_noResult {i : Instr} (hi : i ∈ resultlessCommands) (s : State) : (commandRun i s).NoResult := by
  cases i with
  | rmOpen | rlOpen | wmOpen | wlOpen | tobe16 | tobe32 | tobe64 => exact .done _
  | rmSetpos | rlSetpos => exact readerSetpos_noResult _ s
  | rmClose | rlClose => exact .bind fun _ _ => .done _
  | wmBit | wlBit | wmFlush | wlFlush | wmClose | wlClose => exact .bind fun _ _ => .bind fun _ _ => .done _
  | wmBits32 | wlBits32 | wmBits64 | wlBits64 | wmRep | wlRep =>
    exact .bind fun _ _ => .bind fun _ _ => .bind fun _ _ => .done _
  | _ => exact absurd hi (by decide)

/-- R96: a successful command without a scalar result leaves `RES`. -/
theorem exec_keeps_res {i : Instr} {s t : State} (h : exec i s = .next t) (ht : t.status = 0)
    (hi : i ∈ resultlessCommands) : t.res = s.res := by
  obtain ⟨v, u, hr, hk, rfl⟩ | ⟨e, u, -, -, rfl⟩ := exec_next_cases h
  · obtain rfl := commandRun_noResult hi s v u hr
    exact hk.res
  · exact absurd ht (errorCode_ne_zero e)

/-- What every next state of a command has of the first, `RES` and the ports and records apart. -/
theorem exec_keeps_registers {i : Instr} {s t : State} (h : exec i s = .next t) :
    t.arg0 = s.arg0 ∧ t.arg1 = s.arg1 ∧ t.bufExtra = s.bufExtra ∧ t.script = s.script ∧ t.txIndex = s.txIndex ∧
      t.rdata = s.rdata ∧ (i ∉ bufferCommands → t.blen = s.blen ∧ t.buf = s.buf) := by
  obtain ⟨v, u, -, hk, rfl⟩ | ⟨e, u, -, hk, rfl⟩ := exec_next_cases h
  · simpa only [succeed_arg0, succeed_arg1, succeed_bufExtra, succeed_script, succeed_txIndex, succeed_rdata,
      succeed_blen, succeed_buf] using
      ⟨hk.arg0, hk.arg1, hk.bufExtra, hk.script, hk.txIndex, hk.rdata, hk.buffer⟩
  · exact ⟨hk.arg0, hk.arg1, hk.bufExtra, hk.script, hk.txIndex, hk.rdata, hk.buffer⟩

/-- Settles O17: the registers by what confined pseudocode keeps, the other units' ports and records because they are
foreign to the command. -/
theorem commandsKeepEverythingElse : Obligations.CommandsKeepEverythingElse := by
  intro i s t h
  obtain ⟨harg0, harg1, hextra, hscript, htx, hrdata, hbuffer⟩ := exec_keeps_registers h
  refine ⟨harg0, harg1, hextra, hscript, htx, hrdata, fun hi => ?_, exec_keeps_res h, fun _ => exec_keeps_port h,
    fun _ => exec_keeps_reader h, fun _ => exec_keeps_writer h⟩
  obtain ⟨hblen, hbuf⟩ := hbuffer hi
  exact ⟨hblen, fun a => congrArg (Memory.read · a) hbuf⟩

end Sys2Proof.Machine

/-! # The host's accesses (spec/10_state.md R21 to R29, R36, R37)

A step serves one event. The register map is read once: which numbers are registers, which values fit them, and what a
write and a read of each register do. The statements about host accesses, the reset and the fetch of a command are read
off from that. -/

namespace Sys2Proof.Machine

/-! ### The register map -/

theorem bufBytes_ge (s : State) : 10 ≤ s.bufBytes := Nat.le_add_right 10 _

theorem bufBytes_le (s : State) : s.bufBytes ≤ 255 := by
  have h := s.bufExtra.isLt
  simp only [State.bufBytes, Config.bufBytesMin]
  omega

/-- R21, R63: the numbers without a register are those outside the map. -/
theorem regOf_eq_none_iff {n no : Nat} : regOf n no = none ↔ isRegister n no = false := by
  unfold regOf isRegister
  split
  case h_7 =>
    simp only [imp_false] at *
    simp only [ite_eq_right_iff, reduceCtorEq, imp_false, Bool.or_eq_false_iff, Bool.and_eq_false_iff,
      decide_eq_false_iff_not]
    omega
  all_goals simp

theorem regOf_buf {n i : Nat} (h : i < n) : regOf n (16 + i) = some (.buf i) := by
  unfold regOf
  split
  case h_7 => simp [h]
  all_goals omega

/-- R21: the map, read from the register to its number. -/
theorem regOf_cases {n no : Nat} {r : Reg} (h : regOf n no = some r) :
    (no = 0 ∧ r = .cmd) ∨ (no = 1 ∧ r = .status) ∨ (no = 2 ∧ r = .arg0) ∨ (no = 3 ∧ r = .arg1) ∨
      (no = 4 ∧ r = .res) ∨ (no = 5 ∧ r = .blen) ∨ ∃ i, i < n ∧ no = 16 + i ∧ r = .buf i := by
  unfold regOf at h
  split at h
  case h_7 =>
    split at h
    case isTrue hno =>
      cases h
      exact .inr (.inr (.inr (.inr (.inr (.inr ⟨no - 16, by omega, by omega, rfl⟩)))))
    case isFalse => cases h
  all_goals
    cases h
    simp

/-- R29, R62: a register of `BUF` is a byte inside it. -/
theorem lt_of_regOf_eq_buf {n no i : Nat} (h : regOf n no = some (.buf i)) : i < n := by
  have hmap : i < n ∧ no = 16 + i := by simpa using regOf_cases h
  exact hmap.1

theorem regOf_eq_blen_iff {n no : Nat} : regOf n no = some .blen ↔ no = 5 :=
  ⟨fun h => by simpa using regOf_cases h, fun h => h ▸ rfl⟩

/-- R36: the values that fit a register are those below 2 to its width. -/
theorem fitsRegister_iff {n no : Nat} {r : Reg} (h : regOf n no = some r) (v : Word64) :
    fitsRegister no v = true ↔ v.toNat < 2 ^ regWidth r := by
  have hv : v.toNat < 18446744073709551616 := v.isLt
  obtain ⟨rfl, rfl⟩ | ⟨rfl, rfl⟩ | ⟨rfl, rfl⟩ | ⟨rfl, rfl⟩ | ⟨rfl, rfl⟩ | ⟨rfl, rfl⟩ | ⟨i, -, rfl, rfl⟩ := regOf_cases h
  case inr.inr.inr.inr.inr.inr =>
    have hno : ¬(16 + i = 2 ∨ 16 + i = 4) ∧ 16 + i ≠ 3 := by omega
    simp [fitsRegister, regWidth, hno]
  all_goals simp [fitsRegister, regWidth, hv]

/-! ### The host's writes -/

/-- What a step does with the next event (R24). -/
theorem step_of_script {s : State} {e : Event} {rest : List Event} (h : s.script = e :: rest) :
    step s = runEvent e (takeEvent rest s) := by
  unfold step
  rw [h]

/-- A write of a value that fits its register is the write of that register. -/
theorem hostWrite_eq_writeReg {s : State} {no : Nat} {r : Reg} {v : Word64} (hr : regOf s.bufBytes no = some r)
    (hv : v.toNat < 2 ^ regWidth r) : hostWrite no v s = writeReg r v s := by
  simp only [hostWrite, hr, if_pos hv]

theorem step_write {s : State} {no : Nat} {v : Word64} {rest : List Event} {r : Reg}
    (hs : s.script = .host (.write no v) :: rest) (hr : regOf s.bufBytes no = some r)
    (hv : v.toNat < 2 ^ regWidth r) : step s = writeReg r v (takeEvent rest s) :=
  (step_of_script hs).trans (hostWrite_eq_writeReg hr hv)

theorem step_read {s : State} {no : Nat} {rest : List Event} {r : Reg}
    (hs : s.script = .host (.read no) :: rest) (hr : regOf s.bufBytes no = some r) :
    step s = .next (readReg r (takeEvent rest s)) := by
  have hr' : regOf (takeEvent rest s).bufBytes no = some r := hr
  rw [step_of_script hs]
  simp only [runEvent, hostRead, hr']

theorem issue_of_decode {c : Byte} {i : Instr} (h : decode c = .ok i) (s : State) : issue c s = exec i s := by
  simp only [issue, h]

/-- Settles O4: the write to `CMD` issues the byte, and the byte decodes to the command. -/
theorem stepRunsDecodedCommand : Obligations.StepRunsDecodedCommand := fun _ _ _ _ hs hv hd =>
  (step_write hs rfl hv).trans (issue_of_decode hd _)

/-- R90, R97: an opcode decodes to its command. -/
theorem decode_encode (i : Instr) : decode (encode i) = .ok i := by
  cases i <;> decide

/-- An opcode-table word of eight bits is the byte itself (R100). -/
theorem tableByte_toNat (c : Byte) : tableByte 8 c.toNat = c := by
  apply BitVec.eq_of_toNat_eq
  have hc := c.isLt
  simp only [tableByte, BitVec.toNat_ofNat]
  omega

theorem setWidth_zext64 (c : Byte) : (zext64 c).setWidth 8 = c := by
  apply BitVec.eq_of_toNat_eq
  have hc := c.isLt
  simp only [zext64, BitVec.toNat_setWidth]
  omega

theorem toNat_zext64 (c : Byte) : (zext64 c).toNat = c.toNat := by
  have hc := c.isLt
  simp only [zext64, BitVec.toNat_setWidth]
  omega

/-- Settles O5: the word is the opcode's byte, written to `CMD` it runs the command it decodes to. -/
theorem fetchedOpcodeRuns : Obligations.FetchedOpcodeRuns := by
  intro s i
  have hword : decodeTableWord 8 (encode i).toNat = some i := by
    simp only [decodeTableWord, tableByte_toNat, decode_encode]
  refine ⟨hword, ?_⟩
  have hscript : (s.withFetchWord 8 (encode i).toNat).script = .host (.write 0 (zext64 (encode i))) :: s.script := by
    rw [withFetchWord_script, commandEvent, tableByte_toNat]
  refine stepRunsDecodedCommand _ i _ _ hscript ?_ ?_
  · rw [toNat_zext64]
    exact (encode i).isLt
  · rw [setWidth_zext64, decode_encode]

/-- Settles O6: each register's number, its width and its write. -/
theorem hostWritesRegisters : Obligations.HostWritesRegisters := by
  intro s v rest
  refine ⟨fun hv hs => step_write hs rfl hv, fun hs => step_write hs rfl v.isLt, fun hv hs => step_write hs rfl hv,
    fun hs => step_write hs rfl v.isLt, fun hv hs => ?blen, fun i hi hv hs hwf => ?buf⟩
  case blen =>
    have hmax := bufBytes_le s
    have hbyte : v.toNat < 2 ^ regWidth .blen := by
      simp only [regWidth]
      omega
    exact (step_write hs rfl hbyte).trans (if_pos hv)
  case buf =>
    exact ⟨s.buf.write i (v.setWidth 8), step_write hs (regOf_buf hi) hv, Memory.read_write_same _ _ _ hwf,
      fun a ha => Memory.read_write_other _ _ _ _ ha⟩

/-- Settles O7: each register's number and its read. -/
theorem hostReadsRegisters : Obligations.HostReadsRegisters := by
  intro s no rest hs
  refine ⟨?cmd, ?_, ?_, ?_, ?_, ?_, fun i hi hno => ?buf⟩
  case cmd =>
    rintro rfl
    exact ⟨Config.cmdRead s.draws, step_read hs rfl⟩
  case buf =>
    subst hno
    exact step_read hs (regOf_buf hi)
  all_goals
    rintro rfl
    exact step_read hs rfl

/-! ### The refused accesses -/

/-- R68: no command is refused. -/
theorem exec_ne_refused (i : Instr) (s : State) (x : Refusal) : exec i s ≠ .refused x := by
  rw [exec_eq_finish]
  exact finish_ne_refused _ x

theorem issue_ne_refused (c : Byte) (s : State) (x : Refusal) : issue c s ≠ .refused x := by
  unfold issue
  split
  · exact exec_ne_refused _ s x
  · simp

/-- R28: of the writes that fit their register only one of `BLEN` can be refused. -/
theorem writeReg_refused_iff {r : Reg} {v : Word64} {s : State} :
    (∃ x, writeReg r v s = .refused x) ↔ r = .blen ∧ s.bufBytes < v.toNat := by
  cases r with
  | cmd => simp [writeReg, issue_ne_refused]
  | blen =>
    simp only [writeReg]
    split <;> simp <;> omega
  | status | arg0 | arg1 | res | buf => simp [writeReg]

theorem hostWrite_refused_iff {no : Nat} {v : Word64} {s : State} :
    (∃ x, hostWrite no v s = .refused x) ↔ (Transaction.write no v).wellFormed s.bufBytes = false := by
  cases hr : regOf s.bufBytes no with
  | none =>
    have hreg := regOf_eq_none_iff.mp hr
    simp [hostWrite, hr, Transaction.wellFormed, hreg]
  | some r =>
    have hreg : isRegister s.bufBytes no = true := by
      rw [← Bool.not_eq_false, ← regOf_eq_none_iff, hr]
      simp
    have hblen : r = .blen ↔ no = 5 := by
      rw [← regOf_eq_blen_iff (n := s.bufBytes), hr, Option.some.injEq]
    by_cases hv : v.toNat < 2 ^ regWidth r
    · have hfits := (fitsRegister_iff hr v).mpr hv
      rw [hostWrite_eq_writeReg hr hv, writeReg_refused_iff, hblen]
      simp [Transaction.wellFormed, hreg, hfits]
    · have hfits := mt (fitsRegister_iff hr v).mp hv
      simp [hostWrite, hr, hv, Transaction.wellFormed, hfits]

theorem hostRead_refused_iff {no : Nat} {s : State} :
    (∃ x, hostRead no s = .refused x) ↔ (Transaction.read no).wellFormed s.bufBytes = false := by
  rw [Transaction.wellFormed, ← regOf_eq_none_iff]
  cases hr : regOf s.bufBytes no <;> simp [hostRead, hr]

/-- Settles O8, by the kind of access. -/
theorem hostAccessRefusedExactly : Obligations.HostAccessRefusedExactly := by
  intro s t rest hs
  rw [step_of_script hs]
  cases t with
  | write no v => exact hostWrite_refused_iff (s := takeEvent rest s)
  | read no => exact hostRead_refused_iff (s := takeEvent rest s)

/-! ### The reset and the constructions -/

/-- Settles O9: the free values are those the reset draws, the free buffer among them. -/
theorem resetEventReleasesUnits : Obligations.ResetEventReleasesUnits := by
  intro s rest hs
  obtain ⟨hwf, hinside⟩ := freeBuffer_wf s.bufBytes s.draws
  exact ⟨Config.resetArg0 s.draws, Config.resetArg1 s.draws, Config.resetRes s.draws, freeBuffer s.bufBytes s.draws,
    hwf, hinside, step_of_script hs⟩

/-- Settles O10, by evaluating the records of both orderings. -/
theorem resetValuesOfR37 : Obligations.ResetValuesOfR37 :=
  ⟨rfl, rfl, fun o => by cases o <;> rfl, fun o => by cases o <;> rfl⟩

end Sys2Proof.Machine

/-! # The life of the unit records (spec/10_state.md R28 to R32, spec/70_reset_and_hazards.md R281)

A command's pseudocode changes a record in few ways: a writer's byte is emptied or takes a bit at the cursor, a reader's
byte is pulled or gives a bit, and the device behind it answers. A property of the record that survives those updates
survives every command of the unit but those that construct or release it (`WriterStable`, `ReaderStable`). The
invariant of the machine, the readers' lookahead and the life of the units are read off from that. -/

namespace Sys2Proof.Machine

/-! ### Where a run ends -/

/-- A run that succeeds with an answer and a state as `Q` says, and raises in a state as `E` says. -/
def Run.Meets {α : Type} (r : Run α) (Q : α → State → Prop) (E : State → Prop) : Prop :=
  (∀ a t, r = .done a t → Q a t) ∧ ∀ e t, r = .raised e t → E t

section Meets

variable {α β : Type} {Q : α → State → Prop} {E : State → Prop}

theorem Run.Meets.done {a : α} {s : State} (h : Q a s) : (Run.done a s).Meets Q E :=
  ⟨fun _ _ hr => by cases hr; exact h, fun _ _ hr => by cases hr⟩

theorem Run.Meets.raised {e : ErrorKind} {s : State} (h : E s) : (Run.raised e s : Run α).Meets Q E :=
  ⟨fun _ _ hr => (by cases hr), fun _ _ hr => by cases hr; exact h⟩

theorem Run.Meets.imp {r : Run α} {Q' : α → State → Prop} {E' : State → Prop} (h : r.Meets Q E)
    (hQ : ∀ a t, Q a t → Q' a t) (hE : ∀ t, E t → E' t) : r.Meets Q' E' :=
  ⟨fun a t hr => hQ a t (h.1 a t hr), fun e t hr => hE t (h.2 e t hr)⟩

theorem Run.Meets.imp_raised {r : Run α} {E' : State → Prop} (h : r.Meets Q E) (hE : ∀ t, E t → E' t) : r.Meets Q E' :=
  h.imp (fun _ _ hq => hq) hE

/-- The next line of the pseudocode. -/
theorem Run.Meets.bind {r : Run α} {f : α → State → Run β} {R : β → State → Prop} (hr : r.Meets Q E)
    (hf : ∀ a t, Q a t → (f a t).Meets R E) : (r.bind f).Meets R E := by
  refine ⟨fun b u hb => ?_, fun e u he => ?_⟩
  · obtain ⟨a, t, ha, hfa⟩ := Run.bind_eq_done.mp hb
    exact (hf a t (hr.1 a t ha)).1 b u hfa
  · obtain ha | ⟨a, t, ha, hfa⟩ := Run.bind_eq_raised.mp he
    · exact hr.2 e u ha
    · exact (hf a t (hr.1 a t ha)).2 e u hfa

/-- R140, R180, R255: past the gate the unit is open; a closed gate changes nothing. -/
theorem gate_meets {u : BitUnit} {s : State} (hE : E s) :
    (gate u s).Meets (fun _ t => u.att = true ∧ t = s) E :=
  ⟨fun _ _ h => gate_eq_done.mp h, fun _ _ h => by obtain ⟨-, -, rfl⟩ := gate_eq_raised.mp h; exact hE⟩

theorem countOperand_meets {limit : Nat} {s : State} (hE : E s) :
    (countOperand limit s).Meets (fun _ t => t = s) E := by
  refine ⟨fun n t h => ?_, fun e t h => ?_⟩
  · obtain ⟨-, -, ht⟩ := countOperand_eq_done.mp h
    exact ht
  · obtain ⟨-, -, rfl⟩ := countOperand_eq_raised.mp h
    exact hE

end Meets

/-- R103: the end of a command whose pseudocode is known by where it ends. -/
theorem exec_next_of_meets {i : Instr} {s t : State} {Q : Option Word64 → State → Prop} {E : State → Prop}
    (hr : (commandRun i s).Meets Q E) (h : exec i s = .next t) :
    (∃ v u, Q v u ∧ t = succeed v u) ∨ ∃ e u, E u ∧ t = raiseError e u := by
  rw [exec_eq_finish] at h
  obtain ⟨v, u, hu, ht⟩ | ⟨e, u, hu, ht⟩ := finish_eq_next.mp h
  · exact .inl ⟨v, u, hr.1 v u hu, ht⟩
  · exact .inr ⟨e, u, hr.2 e u hu, ht⟩

/-- A part of the state that the end of a command does not touch is as its pseudocode left it. -/
theorem exec_keeps_of_meets {i : Instr} {s t : State} {P : State → Prop} (hr : (commandRun i s).Meets (fun _ => P) P)
    (hsucceed : ∀ v u, P u → P (succeed v u)) (hraise : ∀ e u, P u → P (raiseError e u)) (h : exec i s = .next t) :
    P t := by
  obtain ⟨v, u, hu, rfl⟩ | ⟨e, u, hu, rfl⟩ := exec_next_of_meets hr h
  · exact hsucceed v u hu
  · exact hraise e u hu

/-! ### Transactions -/

/-- The device has done nothing but answer: it holds what it held and stands where it stood. -/
def Device.Rests (d d' : Device) : Prop :=
  d' = d ∨ ∃ o ds, d = .oracle o ∧ d' = .oracle { o with answers := ds }

theorem Device.getPos_rests {d d' : Device} {a : ValueAnswer} (h : d.getPos = some (a, d')) : d.Rests d' := by
  rcases d with m | ⟨_ | ⟨_, ds⟩, pos, hd, sk, cl⟩ <;>
    simp only [Device.getPos, Option.some.injEq, Prod.mk.injEq, reduceCtorEq] at h
  · exact .inl h.2.symm
  · exact .inr ⟨_, ds, rfl, h.2.symm⟩

theorem Device.getLen_rests {d d' : Device} {a : ValueAnswer} (h : d.getLen = some (a, d')) : d.Rests d' := by
  rcases d with m | ⟨_ | ⟨_, ds⟩, pos, hd, sk, cl⟩ <;>
    simp only [Device.getLen, Option.some.injEq, Prod.mk.injEq, reduceCtorEq] at h
  · exact .inl h.2.symm
  · exact .inr ⟨_, ds, rfl, h.2.symm⟩

theorem Device.setPos_rests {d d' : Device} {v : Word64} (h : d.setPos v = some (.notSeekable, d')) : d.Rests d' := by
  rcases d with m | ⟨_ | ⟨_, ds⟩, pos, hd, sk, cl⟩
  · simp only [Device.setPos] at h
    split at h <;> simp only [Option.some.injEq, Prod.mk.injEq, reduceCtorEq, false_and, true_and] at h
    exact .inl h.symm
  · simp [Device.setPos] at h
  · simp only [Device.setPos] at h
    split at h <;> simp only [Option.some.injEq, Prod.mk.injEq, reduceCtorEq, false_and, true_and] at h
    exact .inr ⟨_, ds, rfl, h.symm⟩

/-- R53, entry 21: a read that gives no byte does not move the device. -/
theorem Device.srcRead_rests {d d' : Device} {a : SrcAnswer} (h : d.srcRead = some (a, d')) (ha : ∀ b, a ≠ .byte b) :
    d.Rests d' := by
  rcases d with m | ⟨_ | ⟨⟨_ | _ | _, w, l⟩, ds⟩, pos, hd, sk, cl⟩
  · simp only [Device.srcRead, MemStream.srcRead, Option.some.injEq, Prod.mk.injEq] at h
    obtain ⟨rfl, rfl⟩ := h
    split
    case isTrue => exact .inl rfl
    case isFalse hopen =>
      split
      case h_1 b hb => exact absurd (by simp [hopen, hb]) (ha b)
      case h_2 => exact .inl rfl
  all_goals simp only [Device.srcRead, Option.some.injEq, Prod.mk.injEq, reduceCtorEq] at h
  · exact absurd h.1.symm (ha _)
  all_goals exact .inr ⟨_, ds, rfl, h.2.symm⟩

/-- After a transaction on port `p` that left its device where it stood. -/
def AtRest (p : Port) (s t : State) : Prop := ∃ d, (s.port p).Rests d ∧ t = s.setPort p d

/-- After a read on port `p` that gave `a`. -/
def Pulled (p : Port) (s : State) (a : SrcAnswer) (t : State) : Prop :=
  ∃ d, (s.port p).srcRead = some (a, d) ∧ t = s.setPort p d

/-- After a move of the device on port `p` to `v`. -/
def Moved (p : Port) (v : Word64) (s t : State) : Prop :=
  ∃ d, (s.port p).setPos v = some (.ok, d) ∧ t = s.setPort p d

theorem Pulled.atRest {p : Port} {s t : State} {a : SrcAnswer} (h : Pulled p s a t) (ha : ∀ b, a ≠ .byte b) :
    AtRest p s t := by
  obtain ⟨d, hd, rfl⟩ := h
  exact ⟨d, Device.srcRead_rests hd ha, rfl⟩

theorem getPos_meets (p : Port) (s : State) : (getPos p s).Meets (fun _ => AtRest p s) (AtRest p s) := by
  refine ⟨fun v t h => ?_, fun e t h => ?_⟩
  · obtain ⟨d, hd, ht⟩ := getPos_eq_done.mp h
    exact ⟨d, Device.getPos_rests hd, ht⟩
  · obtain ⟨-, d, hd, ht⟩ := getPos_eq_raised.mp h
    exact ⟨d, Device.getPos_rests hd, ht⟩

theorem getLen_meets (p : Port) (s : State) : (getLen p s).Meets (fun _ => AtRest p s) (AtRest p s) := by
  refine ⟨fun v t h => ?_, fun e t h => ?_⟩
  · obtain ⟨d, hd, ht⟩ := getLen_eq_done.mp h
    exact ⟨d, Device.getLen_rests hd, ht⟩
  · obtain ⟨-, d, hd, ht⟩ := getLen_eq_raised.mp h
    exact ⟨d, Device.getLen_rests hd, ht⟩

theorem setPos_meets (p : Port) (v : Word64) (s : State) :
    (setPos p v s).Meets (fun _ => Moved p v s) (AtRest p s) := by
  refine ⟨fun a t h => setPos_eq_done.mp h, fun e t h => ?_⟩
  obtain ⟨-, d, hd, ht⟩ := setPos_eq_raised.mp h
  exact ⟨d, Device.setPos_rests hd, ht⟩

theorem srcRead_meets (p : Port) (s : State) {E : State → Prop} : (srcRead p s).Meets (Pulled p s) E :=
  ⟨fun _ _ h => srcRead_eq_done.mp h, fun _ _ h => absurd h srcRead_ne_raised⟩

/-! ### The end of a command and the records -/

@[simp] theorem reader_succeed (v : Option Word64) (s : State) (o : BitOrder) :
    (succeed v s).reader o = s.reader o := by cases v <;> cases o <;> rfl

@[simp] theorem reader_raiseError (e : ErrorKind) (s : State) (o : BitOrder) :
    (raiseError e s).reader o = s.reader o := by cases o <;> rfl

@[simp] theorem writer_succeed (v : Option Word64) (s : State) (o : BitOrder) :
    (succeed v s).writer o = s.writer o := by cases v <;> cases o <;> rfl

@[simp] theorem writer_raiseError (e : ErrorKind) (s : State) (o : BitOrder) :
    (raiseError e s).writer o = s.writer o := by cases o <;> rfl

/-! ### The commands of a unit, for both orderings -/

section Commands

variable (o : BitOrder)

@[simp] theorem commandRun_rdOpen : commandRun (rdOpen o) = readerOpen o := by cases o <;> rfl
@[simp] theorem commandRun_rdBit : commandRun (rdBit o) = readerBit o := by cases o <;> rfl
@[simp] theorem commandRun_rdBits32 : commandRun (rdBits32 o) = readerBits o 32 := by cases o <;> rfl
@[simp] theorem commandRun_rdBits64 : commandRun (rdBits64 o) = readerBits o 64 := by cases o <;> rfl
@[simp] theorem commandRun_rdGetpos : commandRun (rdGetpos o) = readerGetpos o := by cases o <;> rfl
@[simp] theorem commandRun_rdSetpos : commandRun (rdSetpos o) = readerSetpos o := by cases o <;> rfl
@[simp] theorem commandRun_rdLen : commandRun (rdLen o) = readerLen o := by cases o <;> rfl
@[simp] theorem commandRun_rdEos : commandRun (rdEos o) = readerEos o := by cases o <;> rfl
@[simp] theorem commandRun_rdClose : commandRun (rdClose o) = readerClose o := by cases o <;> rfl
@[simp] theorem commandRun_wrOpen : commandRun (wrOpen o) = writerOpen o := by cases o <;> rfl
@[simp] theorem commandRun_wrBit : commandRun (wrBit o) = writerBit o := by cases o <;> rfl
@[simp] theorem commandRun_wrBits32 : commandRun (wrBits32 o) = writerBits32 o := by cases o <;> rfl
@[simp] theorem commandRun_wrBits64 : commandRun (wrBits64 o) = writerBits64 o := by cases o <;> rfl
@[simp] theorem commandRun_wrRep : commandRun (wrRep o) = writerRep o := by cases o <;> rfl
@[simp] theorem commandRun_wrGetpos : commandRun (wrGetpos o) = writerGetpos o := by cases o <;> rfl
@[simp] theorem commandRun_wrLen : commandRun (wrLen o) = writerLen o := by cases o <;> rfl
@[simp] theorem commandRun_wrFlush : commandRun (wrFlush o) = writerFlush o := by cases o <;> rfl
@[simp] theorem commandRun_wrClose : commandRun (wrClose o) = writerClose o := by cases o <;> rfl

variable {o} {i : Instr}

/-- R92: the nine commands of a reader. -/
theorem command_of_readerUnit (h : i.unit = readerUnit o) :
    i = rdOpen o ∨ i = rdBit o ∨ i = rdBits32 o ∨ i = rdBits64 o ∨ i = rdGetpos o ∨ i = rdSetpos o ∨ i = rdLen o ∨
      i = rdEos o ∨ i = rdClose o := by
  revert h
  cases o <;> cases i <;> decide

/-- R92: the nine commands of a writer. -/
theorem command_of_writerUnit (h : i.unit = writerUnit o) :
    i = wrOpen o ∨ i = wrBit o ∨ i = wrBits32 o ∨ i = wrBits64 o ∨ i = wrRep o ∨ i = wrGetpos o ∨ i = wrLen o ∨
      i = wrFlush o ∨ i = wrClose o := by
  revert h
  cases o <;> cases i <;> decide

end Commands

/-! ### The constructions -/

/-- A command whose pseudocode succeeds completes in the state it reached, `STATUS` 0 (R103). -/
theorem exec_of_commandRun_done {i : Instr} {s t : State} {v : Option Word64} (h : commandRun i s = .done v t) :
    exec i s = .next (succeed v t) := by
  rw [exec_eq_finish, h]
  rfl

/-- Settles O32: the pseudocode of a reader's `OPEN` is the construction and nothing else. -/
theorem readerOpenConstructs : Obligations.ReaderOpenConstructs :=
  ⟨rfl, rfl, fun o s => exec_of_commandRun_done (congrFun (commandRun_rdOpen o) s)⟩

/-- Settles O44: the pseudocode of a writer's `OPEN` is the construction and nothing else. -/
theorem writerOpenConstructs : Obligations.WriterOpenConstructs :=
  ⟨rfl, rfl, fun o s => exec_of_commandRun_done (congrFun (commandRun_wrOpen o) s)⟩

/-! ### A byte's bits -/

theorem bitPlace_lt (o : BitOrder) {k : Nat} (h : k < 8) : bitPlace o k < 8 := by
  cases o <;> simp only [bitPlace] <;> omega

theorem bitPlace_ne (o : BitOrder) {j k : Nat} (hj : j < 8) (hk : k < 8) (h : j ≠ k) : bitPlace o j ≠ bitPlace o k := by
  cases o <;> simp only [bitPlace] <;> omega

/-- A bit put at one place leaves the other places. -/
theorem streamBit_putStreamBit_other (o : BitOrder) (b : Byte) (v : Bool) {j k : Nat} (hj : j < 8) (hk : k < 8)
    (h : j ≠ k) : streamBit o (putStreamBit o b j v) k = streamBit o b k := by
  have hplace := bitPlace_lt o hk
  have hne := bitPlace_ne o hj hk h
  have hone : ((1 : Byte) <<< bitPlace o j).getLsbD (bitPlace o k) = false := by
    simp only [BitVec.ofNat_eq_ofNat, BitVec.getLsbD_shiftLeft, BitVec.getLsbD_one, Nat.ofNat_pos, decide_true,
      Bool.true_and, Bool.and_eq_false_imp, Bool.and_eq_true, decide_eq_true_eq, Bool.not_eq_eq_eq_not, Bool.not_true,
      decide_eq_false_iff_not, not_lt, and_imp]
    omega
  cases v <;>
    simp only [streamBit, putStreamBit, BitVec.getLsbD_or, BitVec.getLsbD_and, BitVec.getLsbD_not, hone, hplace,
      if_true, Bool.or_false, Bool.false_eq_true, if_false, decide_true, Bool.not_false, Bool.and_true]

@[simp] theorem streamBit_zero (o : BitOrder) (k : Nat) : streamBit o 0 k = false := by simp [streamBit]

theorem Cursor.val_add_one {c : Cursor} (h : c ≠ 8) : (c + 1).val = c.val + 1 :=
  Fin.val_add_one_of_lt (Fin.lt_last_iff_ne_last.mpr h)

/-! ### A writer's record -/

/-- The record emptied by an emission (R182). -/
def BitUnit.emptied (u : BitUnit) : BitUnit := { u with buf := 0, cur := 0 }

/-- The record with a bit put at its cursor (R181). -/
def BitUnit.withBit (o : BitOrder) (v : Bool) (u : BitUnit) : BitUnit :=
  { u with buf := putStreamBit o u.buf u.cur.val v, cur := u.cur + 1 }

/-- A property of a writer's record that an emission and a bit put into an open record that has room keep. -/
structure WriterStable (o : BitOrder) (P : BitUnit → Prop) : Prop where
  emptied : ∀ u, P u → P u.emptied
  withBit : ∀ u v, u.att = true → u.cur ≠ 8 → P u → P (u.withBit o v)

/-- R32: a writer at a byte boundary holds no bits. -/
theorem writerOk_boundary (o : BitOrder) (att : Bool) : WriterOk o { att := att, buf := 0, cur := 0 } :=
  ⟨fun k _ _ => streamBit_zero o k, fun _ => rfl⟩

/-- R32: the unwritten places of a writer's byte stay zero. -/
theorem writerStable_writerOk (o : BitOrder) : WriterStable o (WriterOk o) where
  emptied u _ := writerOk_boundary o u.att
  withBit u v hatt hcur hu := by
    obtain ⟨hzero, -⟩ := hu
    refine ⟨fun k hk hle => ?_, fun h => absurd h (by simp [BitUnit.withBit, hatt])⟩
    have hlt : u.cur.val + 1 ≤ k := Cursor.val_add_one hcur ▸ hle
    exact (streamBit_putStreamBit_other o u.buf v (by omega) hk (by omega)).trans (hzero k hk (by omega))

/-- R281: writing does not open or release. -/
theorem writerStable_att (o : BitOrder) (b : Bool) : WriterStable o fun u => u.att = b :=
  ⟨fun _ h => h, fun _ _ _ _ h => h⟩

section Writer

variable (o : BitOrder) (P : BitUnit → Prop)

/-- The writer's record satisfies `P`. -/
def HasWriter (s : State) : Prop := P (s.writer o)

/-- The writer is open and its record satisfies `P`. -/
def OpenWriter (s : State) : Prop := (s.writer o).att = true ∧ P (s.writer o)

/-- The writer is open at a byte boundary and its record satisfies `P`. -/
def EmptyWriter (s : State) : Prop := OpenWriter o P s ∧ (s.writer o).cur = 0

/-- The writer is one that satisfied `P` at a byte boundary, released. -/
def ReleasedWriter (s : State) : Prop := ∃ u, P u ∧ u.cur = 0 ∧ s.writer o = { u with att := false }

variable {o P}

theorem OpenWriter.hasWriter {s : State} (h : OpenWriter o P s) : HasWriter o P s := h.2

theorem AtRest.hasWriter {p : Port} {s t : State} (ht : AtRest p s t) (h : HasWriter o P s) : HasWriter o P t := by
  obtain ⟨d, -, rfl⟩ := ht
  simpa only [HasWriter, writer_setPort] using h

/-- A transaction changes no record. -/
theorem snkWrite_meets {p : Port} {b : Byte} {s : State} (h : OpenWriter o P s) :
    (snkWrite p b s).Meets (fun _ => OpenWriter o P) (OpenWriter o P) := by
  refine ⟨fun a t hr => ?_, fun e t hr => ?_⟩
  · obtain ⟨d, -, rfl⟩ := snkWrite_eq_done.mp hr
    simpa only [OpenWriter, writer_setPort] using h
  · obtain ⟨a, d, -, -, rfl⟩ := snkWrite_eq_raised.mp hr
    simpa only [OpenWriter, writer_setPort] using h

/-- Past the gate a writer's pseudocode works on an open writer. -/
theorem writerGate_bind_meets {s : State} {f : Unit → State → Run (Option Word64)} {Q : Option Word64 → State → Prop}
    (h : HasWriter o P s) (hf : OpenWriter o P s → (f () s).Meets Q (HasWriter o P)) :
    ((gate (s.writer o) s).bind f).Meets Q (HasWriter o P) := by
  refine (gate_meets h).bind fun _ t ⟨hatt, ht⟩ => ?_
  subst ht
  exact hf ⟨hatt, h⟩

section Stable

variable (hP : WriterStable o P)
include hP

theorem emit_meets {s : State} (h : OpenWriter o P s) :
    (emit o s).Meets (fun _ => EmptyWriter o P) (OpenWriter o P) := by
  refine (snkWrite_meets h).bind fun _ t ⟨hatt, ht⟩ => .done ?_
  simp only [EmptyWriter, OpenWriter, writer_setWriter_same]
  exact ⟨⟨hatt, hP.emptied _ ht⟩, trivial⟩

theorem placeBit_meets {s : State} (v : Bool) (h : OpenWriter o P s) (hcur : (s.writer o).cur ≠ 8) :
    (placeBit o v s).Meets (fun _ => OpenWriter o P) (OpenWriter o P) := by
  obtain ⟨hatt, hs⟩ := h
  have hput : OpenWriter o P (s.setWriter o ((s.writer o).withBit o v)) := by
    simp only [OpenWriter, writer_setWriter_same]
    exact ⟨hatt, hP.withBit _ v hatt hcur hs⟩
  unfold placeBit
  dsimp only
  split
  · exact (emit_meets hP hput).imp (fun _ _ ht => ht.1) fun _ => id
  · exact .done hput

/-- At `cur` = 8 the emission that is retried makes the room (entry 5). -/
theorem writeBit_meets {s : State} (v : Bool) (h : OpenWriter o P s) :
    (writeBit o v s).Meets (fun _ => OpenWriter o P) (OpenWriter o P) := by
  by_cases hcur : (s.writer o).cur = 8
  · rw [writeBit_retry hcur]
    refine (emit_meets hP h).bind fun _ t ⟨ht, hempty⟩ => placeBit_meets hP v ht ?_
    rw [hempty]
    decide
  · rw [writeBit_inside hcur]
    exact placeBit_meets hP v h hcur

theorem writeField_meets (field : Word64) (n : Nat) {s : State} (h : OpenWriter o P s) :
    (writeField o field n s).Meets (fun _ => OpenWriter o P) (OpenWriter o P) := by
  induction n generalizing s with
  | zero => exact .done h
  | succ n ih => exact (writeBit_meets hP _ h).bind fun _ _ ht => ih ht

theorem writeRepeat_meets (v : Bool) (n : Nat) {s : State} (h : OpenWriter o P s) :
    (writeRepeat o v n s).Meets (fun _ => OpenWriter o P) (OpenWriter o P) := by
  induction n generalizing s with
  | zero => exact .done h
  | succ n ih => exact (writeBit_meets hP v h).bind fun _ _ ht => ih ht

theorem flushBits_meets {s : State} (h : OpenWriter o P s) :
    (flushBits o s).Meets (fun _ => EmptyWriter o P) (OpenWriter o P) := by
  by_cases hcur : (s.writer o).cur = 0
  · rw [flushBits_boundary hcur]
    exact .done ⟨h, hcur⟩
  · rw [flushBits_pending hcur]
    exact emit_meets hP h

theorem release_meets {s : State} (h : OpenWriter o P s) :
    (release o s).Meets (fun _ => ReleasedWriter o P) (HasWriter o P) := by
  refine ((flushBits_meets hP h).imp_raised fun _ => OpenWriter.hasWriter).bind
    fun _ t ⟨⟨_, ht⟩, hcur⟩ => .done ?_
  exact ⟨t.writer o, ht, hcur, writer_setWriter_same ..⟩

theorem writerBit_meets {s : State} (h : HasWriter o P s) :
    (writerBit o s).Meets (fun _ => HasWriter o P) (HasWriter o P) :=
  writerGate_bind_meets h fun hopen =>
    ((writeBit_meets hP _ hopen).imp (fun _ _ => OpenWriter.hasWriter) fun _ => OpenWriter.hasWriter).bind
      fun _ _ ht => .done ht

end Stable

/-- The shape of `BITS32`, `BITS64` and `REP`: a count, then that many bits. -/
theorem writerCounted_meets {limit : Nat} {s : State} {w : Nat → State → Run Unit} (h : HasWriter o P s)
    (hw : ∀ n, OpenWriter o P s → (w n s).Meets (fun _ => OpenWriter o P) (OpenWriter o P)) :
    ((gate (s.writer o) s).bind fun _ s1 => (countOperand limit s1).bind fun n s2 =>
      (w n s2).bind fun _ s3 => .done (none : Option Word64) s3).Meets (fun _ => HasWriter o P) (HasWriter o P) := by
  refine writerGate_bind_meets h fun hopen => (countOperand_meets h).bind fun n t ht => ?_
  subst ht
  exact ((hw n hopen).imp (fun _ _ => OpenWriter.hasWriter) fun _ => OpenWriter.hasWriter).bind fun _ _ ht => .done ht

/-- R182, R190: what `FLUSH` and `CLOSE` leave. -/
theorem writerFlush_meets (hP : WriterStable o P) {s : State} (h : HasWriter o P s) :
    (writerFlush o s).Meets (fun _ => ReleasedWriter o P) (HasWriter o P) :=
  writerGate_bind_meets h fun hopen => (release_meets hP hopen).bind fun _ _ ht => .done ht

theorem writerClose_meets (hP : WriterStable o P) {s : State} (h : HasWriter o P s) :
    (writerClose o s).Meets (fun _ => ReleasedWriter o P) (HasWriter o P) :=
  writerGate_bind_meets h fun hopen => (release_meets hP hopen).bind fun _ t ht => .done (by
    simpa only [ReleasedWriter, portClose, writer_setPort] using ht)

theorem writerGetpos_meets {s : State} (h : HasWriter o P s) :
    (writerGetpos o s).Meets (fun _ => HasWriter o P) (HasWriter o P) :=
  writerGate_bind_meets h fun _ =>
    ((getPos_meets _ s).imp (fun _ _ ht => ht.hasWriter h) fun _ ht => ht.hasWriter h).bind fun _ _ ht => .done ht

theorem writerLen_meets {s : State} (h : HasWriter o P s) :
    (writerLen o s).Meets (fun _ => HasWriter o P) (HasWriter o P) :=
  writerGate_bind_meets h fun _ =>
    ((getLen_meets _ s).imp (fun _ _ ht => ht.hasWriter h) fun _ ht => ht.hasWriter h).bind fun _ _ ht => .done ht

/-- A stable property of the writer's record survives every command of the writer but those that construct or release
it. -/
theorem commandRun_meets_hasWriter (hP : WriterStable o P) {i : Instr} {s : State} (hu : i.unit = writerUnit o)
    (hopen : i ≠ wrOpen o) (hflush : i ≠ wrFlush o) (hclose : i ≠ wrClose o) (hs : HasWriter o P s) :
    (commandRun i s).Meets (fun _ => HasWriter o P) (HasWriter o P) := by
  obtain rfl | rfl | rfl | rfl | rfl | rfl | rfl | rfl | rfl := command_of_writerUnit hu
  · exact absurd rfl hopen
  · rw [commandRun_wrBit]
    exact writerBit_meets hP hs
  · rw [commandRun_wrBits32]
    exact writerCounted_meets hs fun n => writeField_meets hP _ n
  · rw [commandRun_wrBits64]
    exact writerCounted_meets hs fun n => writeField_meets hP _ n
  · rw [commandRun_wrRep]
    exact writerCounted_meets hs fun n => writeRepeat_meets hP _ n
  · rw [commandRun_wrGetpos]
    exact writerGetpos_meets hs
  · rw [commandRun_wrLen]
    exact writerLen_meets hs
  · exact absurd rfl hflush
  · exact absurd rfl hclose

theorem exec_keeps_hasWriter (hP : WriterStable o P) {i : Instr} {s t : State} (h : exec i s = .next t)
    (hopen : i ≠ wrOpen o) (hflush : i ≠ wrFlush o) (hclose : i ≠ wrClose o) (hs : HasWriter o P s) :
    HasWriter o P t := by
  by_cases hu : i.unit = writerUnit o
  · refine exec_keeps_of_meets (commandRun_meets_hasWriter hP hu hopen hflush hclose hs) (fun v u hw => ?_)
      (fun e u hw => ?_) h
    · rwa [HasWriter, writer_succeed]
    · rwa [HasWriter, writer_raiseError]
  · rwa [HasWriter, exec_keeps_writer h hu]

/-- R190, R191, R281: `FLUSH` and `CLOSE` release the writer if they succeed and only then. -/
theorem exec_release_cases (hP : WriterStable o P) {i : Instr} {s t : State} (h : exec i s = .next t)
    (hi : i = wrFlush o ∨ i = wrClose o) (hs : HasWriter o P s) :
    (t.status = 0 ∧ ReleasedWriter o P t) ∨ (t.status ≠ 0 ∧ HasWriter o P t) := by
  have hrun : (commandRun i s).Meets (fun _ => ReleasedWriter o P) (HasWriter o P) := by
    obtain rfl | rfl := hi
    · rw [commandRun_wrFlush]
      exact writerFlush_meets hP hs
    · rw [commandRun_wrClose]
      exact writerClose_meets hP hs
  obtain ⟨v, u, hu, rfl⟩ | ⟨e, u, hu, rfl⟩ := exec_next_of_meets hrun h
  · exact .inl ⟨succeed_status v u, by simpa only [ReleasedWriter, writer_succeed] using hu⟩
  · exact .inr ⟨errorCode_ne_zero e, by rwa [HasWriter, writer_raiseError]⟩

end Writer

theorem exec_wrOpen_writer {o : BitOrder} {s t : State} (h : exec (wrOpen o) s = .next t) :
    t.writer o = openedWriter := by
  rw [writerOpenConstructs.2.2 o s] at h
  cases h
  cases o <;> rfl

/-- R32: every command keeps the writers' records as they must be. -/
theorem exec_keeps_writerOk {i : Instr} {s t : State} (h : exec i s = .next t) (o : BitOrder)
    (hs : WriterOk o (s.writer o)) : WriterOk o (t.writer o) := by
  by_cases hopen : i = wrOpen o
  · subst hopen
    rw [exec_wrOpen_writer h]
    exact writerOk_boundary o true
  by_cases hrelease : i = wrFlush o ∨ i = wrClose o
  · obtain ⟨-, u, ⟨hzero, -⟩, hcur, hu⟩ | ⟨-, ht⟩ := exec_release_cases (writerStable_writerOk o) h hrelease hs
    · rw [hu]
      exact ⟨hzero, fun _ => hcur⟩
    · exact ht
  · obtain ⟨hflush, hclose⟩ := not_or.mp hrelease
    exact exec_keeps_hasWriter (writerStable_writerOk o) h hopen hflush hclose hs

/-! ### The invariant of the machine -/

theorem errorCode_le (e : ErrorKind) : (errorCode e).toNat ≤ 8 := by cases e <;> decide

/-- R23, R251: a command ends with a code of R251. -/
theorem exec_status_le {i : Instr} {s t : State} (h : exec i s = .next t) : t.status.toNat ≤ 8 := by
  obtain ⟨v, u, -, -, rfl⟩ | ⟨e, u, -, -, rfl⟩ := exec_next_cases h
  · rw [succeed_status]
    decide
  · exact errorCode_le e

/-- R122: a loop with `fuel` bytes left gives no more than those. -/
theorem varintLoop_length_le (fuel : Nat) (v : Word64) : (varintLoop fuel v).length ≤ fuel := by
  induction fuel generalizing v with
  | zero => exact Nat.le_refl 0
  | succ fuel ih =>
    rw [varintLoop]
    split
    · exact Nat.le_add_left 1 fuel
    · exact Nat.succ_le_succ (ih _)

@[simp] theorem bigEndianBytes_length {w : Nat} (v : BitVec w) (m : Nat) : (bigEndianBytes v m).length = m := by
  induction m with
  | zero => rfl
  | succ m ih => exact congrArg Nat.succ ih

/-- R62: the commands that write `BUF` store at most ten bytes, which every `BUF` holds. -/
theorem commandRun_of_bufferCommand {i : Instr} (hi : i ∈ bufferCommands) (s : State) :
    ∃ v bs, bs.length ≤ 10 ∧ commandRun i s = .done v (s.storeBytes bs) := by
  simp only [List.mem_cons, List.not_mem_nil, or_false] at hi
  obtain rfl | rfl | rfl | rfl := hi
  · exact ⟨_, varintBytes s.arg0, varintLoop_length_le 10 _, rfl⟩
  all_goals exact ⟨none, _, by rw [bigEndianBytes_length]; decide, rfl⟩

/-- The parts of the state that `BufferOk` speaks of. -/
theorem BufferOk.of_eq {s t : State} (h : BufferOk s) (hbuf : t.buf = s.buf) (hblen : t.blen = s.blen)
    (hextra : t.bufExtra = s.bufExtra) : BufferOk t := by
  simpa only [BufferOk, State.bufBytes, hbuf, hblen, hextra] using h

theorem BufferOk.storeBytes {s : State} (h : BufferOk s) {bs : List Byte} (hbs : bs.length ≤ 10) :
    BufferOk (s.storeBytes bs) := by
  obtain ⟨hwf, hinside, -⟩ := h
  have hroom := bufBytes_ge s
  refine ⟨Memory.store_wf bs s.buf 0 hwf, fun c hc => ?_, ?_⟩
  · obtain hc | ⟨-, hc⟩ := Memory.mem_store bs s.buf 0 c hc
    · exact hinside c hc
    · change c.1 < s.bufBytes
      omega
  · change bs.length % 2 ^ 8 ≤ s.bufBytes
    omega

theorem exec_keeps_bufferOk {i : Instr} {s t : State} (h : exec i s = .next t) (hs : BufferOk s) : BufferOk t := by
  by_cases hi : i ∈ bufferCommands
  · obtain ⟨v, bs, hbs, hrun⟩ := commandRun_of_bufferCommand hi s
    rw [exec_of_commandRun_done hrun] at h
    cases h
    exact (hs.storeBytes hbs).of_eq (succeed_buf ..) (succeed_blen ..) (succeed_bufExtra ..)
  · obtain ⟨-, -, hextra, -, -, -, hbuffer⟩ := exec_keeps_registers h
    obtain ⟨hblen, hbuf⟩ := hbuffer hi
    exact hs.of_eq hbuf hblen hextra

theorem exec_keeps_inv {i : Instr} {s t : State} (h : exec i s = .next t) (hs : s.Inv) : t.Inv := by
  obtain ⟨-, hbuffer, hwm, hwl⟩ := hs
  exact ⟨exec_status_le h, exec_keeps_bufferOk h hbuffer, exec_keeps_writerOk h .msb hwm,
    exec_keeps_writerOk h .lsb hwl⟩

theorem raiseError_keeps_inv (e : ErrorKind) {s : State} (hs : s.Inv) : (raiseError e s).Inv := by
  obtain ⟨-, hbuffer, hwriters⟩ := hs
  exact ⟨errorCode_le e, hbuffer, hwriters⟩

theorem issue_keeps_inv {c : Byte} {s t : State} (h : issue c s = .next t) (hs : s.Inv) : t.Inv := by
  unfold issue at h
  split at h
  · exact exec_keeps_inv h hs
  · cases h
    exact raiseError_keeps_inv _ hs

/-- R28, R29: a byte of `BUF` written inside it. -/
theorem BufferOk.write {s : State} (h : BufferOk s) {k : Nat} (hk : k < s.bufBytes) (b : Byte) :
    BufferOk { s with buf := s.buf.write k b } := by
  obtain ⟨hwf, hinside, hblen⟩ := h
  refine ⟨Memory.write_wf _ k b hwf, fun c hc => ?_, hblen⟩
  obtain hc | ⟨rfl, -⟩ := Memory.mem_write s.buf k b c hc
  · exact hinside c hc
  · exact hk

theorem writeReg_keeps_inv {no : Nat} {r : Reg} {v : Word64} {s t : State} (hr : regOf s.bufBytes no = some r)
    (h : writeReg r v s = .next t) (hs : s.Inv) : t.Inv := by
  cases r with
  | cmd => exact issue_keeps_inv h hs
  | status | arg0 | arg1 | res =>
    cases h
    exact hs
  | blen =>
    obtain ⟨hstatus, ⟨hwf, hinside, -⟩, hwriters⟩ := hs
    simp only [writeReg] at h
    split at h
    case isTrue hv =>
      cases h
      refine ⟨hstatus, ⟨hwf, hinside, ?_⟩, hwriters⟩
      change (v.setWidth 8).toNat ≤ s.bufBytes
      rw [BitVec.toNat_setWidth]
      omega
    case isFalse => cases h
  | buf k =>
    obtain ⟨hstatus, hbuffer, hwriters⟩ := hs
    cases h
    exact ⟨hstatus, hbuffer.write (lt_of_regOf_eq_buf hr) _, hwriters⟩

theorem hostWrite_keeps_inv {no : Nat} {v : Word64} {s t : State} (h : hostWrite no v s = .next t) (hs : s.Inv) :
    t.Inv := by
  unfold hostWrite at h
  split at h
  · cases h
  case h_2 r hr =>
    split at h
    · exact writeReg_keeps_inv hr h hs
    · cases h

theorem hostRead_keeps_inv {no : Nat} {s t : State} (h : hostRead no s = .next t) (hs : s.Inv) : t.Inv := by
  unfold hostRead at h
  split at h
  · cases h
  case h_2 r _ =>
    cases h
    cases r <;> exact hs

theorem blockReset_keeps_inv (s : State) : (blockReset s).Inv := by
  obtain ⟨hwf, hinside⟩ := freeBuffer_wf s.bufBytes s.draws
  exact ⟨Nat.zero_le 8, ⟨hwf, hinside, Nat.zero_le _⟩, writerOk_boundary .msb false, writerOk_boundary .lsb false⟩

theorem setPort_keeps_inv {s : State} (p : Port) (d : Device) (hs : s.Inv) : (s.setPort p d).Inv := by
  cases p <;> exact hs

theorem runEvent_keeps_inv {e : Event} {s t : State} (h : runEvent e s = .next t) (hs : s.Inv) : t.Inv := by
  cases e with
  | host x =>
    cases x with
    | write no v => exact hostWrite_keeps_inv h hs
    | read no => exact hostRead_keeps_inv h hs
  | reset =>
    cases h
    exact blockReset_keeps_inv s
  | wire p d =>
    simp only [runEvent, wire] at h
    split at h
    · cases h
      exact setPort_keeps_inv p d hs
    · cases h

/-- Settles O11, by the kinds of event. -/
theorem stepKeepsInvariant : Obligations.StepKeepsInvariant := by
  intro s t hs h
  cases hscript : s.script with
  | nil =>
    simp only [step, hscript, idle] at h
    cases h
    exact hs
  | cons e rest =>
    rw [step_of_script hscript] at h
    exact runEvent_keeps_inv h hs

/-- Settles O12, part by part: the state after reset has no byte in `BUF` and both writers released. -/
theorem resetMeetsInvariant : Obligations.ResetMeetsInvariant :=
  ⟨Nat.zero_le 8, ⟨reset_memory_wf, fun _ hc => absurd hc List.not_mem_nil, Nat.zero_le _⟩,
    writerOk_boundary .msb false, writerOk_boundary .lsb false⟩

/-! ### A reader's record and its device -/

/-- A property of a reader's record and the device on its port that every pull, every bit taken, every move and every
other answer keeps. -/
structure ReaderStable (P : BitUnit → Device → Prop) : Prop where
  rest : ∀ u d d', d.Rests d' → P u d → P u d'
  pulled : ∀ u d b d' k, d.srcRead = some (.byte b, d') → P u d → P { u with buf := b, cur := k } d'
  taken : ∀ u d, u.cur ≠ 8 → P u d → P { u with cur := u.cur + 1 } d
  moved : ∀ u d v d', d.setPos v = some (.ok, d') → P u d → P { u with cur := 8 } d'

/-- R53: where the byte a device gave stands. -/
theorem lookaheadOk_of_srcRead {d d' : Device} {b : Byte} (h : d.srcRead = some (.byte b, d')) (u : BitUnit)
    (k : Cursor) : LookaheadOk { u with buf := b, cur := k } d' := by
  intro _ _
  rcases d with m | ⟨_ | ⟨⟨_ | _ | _, w, l⟩, ds⟩, pos, hd, sk, cl⟩
  · simp only [Device.srcRead, MemStream.srcRead, Option.some.injEq, Prod.mk.injEq] at h
    obtain ⟨ha, rfl⟩ := h
    split at ha
    · cases ha
    case isFalse hopen =>
      split at ha
      case h_1 hb =>
        cases ha
        simp [hopen, hb]
      case h_2 => cases ha
  all_goals simp only [Device.srcRead, Option.some.injEq, Prod.mk.injEq, reduceCtorEq, false_and] at h
  obtain ⟨-, rfl⟩ := h
  exact Nat.succ_pos pos

/-- R31: the lookahead. At a boundary nothing is claimed, so a move of the device is harmless. -/
theorem readerStable_lookaheadOk : ReaderStable LookaheadOk where
  rest u d d' hd h := by
    obtain rfl | ⟨o, ds, rfl, rfl⟩ := hd
    · exact h
    · exact h
  pulled u _ _ _ k hd _ := lookaheadOk_of_srcRead hd u k
  taken u d hcur h hatt hlt := by
    have hval : (u.cur + 1).val = u.cur.val + 1 := Cursor.val_add_one hcur
    have hlt' : (u.cur + 1).val < 8 := hlt
    exact h hatt (by omega)
  moved _ _ _ _ _ _ _ hlt := absurd hlt (Nat.lt_irrefl 8)

/-- R281: reading does not open or release. -/
theorem readerStable_att (b : Bool) : ReaderStable fun u _ => u.att = b :=
  ⟨fun _ _ _ _ h => h, fun _ _ _ _ _ _ h => h, fun _ _ _ h => h, fun _ _ _ _ _ h => h⟩

section Reader

variable (o : BitOrder) (P : BitUnit → Device → Prop)

/-- The reader's record and its device satisfy `P`. -/
def HasReader (s : State) : Prop := P (s.reader o) (s.port (readPort o))

variable {o P}

/-- Past the gate a reader's pseudocode starts where the command did. -/
theorem readerGate_bind_meets {s : State} {f : Unit → State → Run (Option Word64)} {Q : Option Word64 → State → Prop}
    {E : State → Prop} (h : E s) (hf : (f () s).Meets Q E) : ((gate (s.reader o) s).bind f).Meets Q E := by
  refine (gate_meets h).bind fun _ t ⟨_, ht⟩ => ?_
  subst ht
  exact hf

/-- R151, R160: a reader's `CLOSE` releases it, or the gate stops it before it does anything. -/
theorem readerClose_meets (s : State) :
    (readerClose o s).Meets (fun _ t => (t.reader o).att = false) (fun t => t = s) :=
  readerGate_bind_meets rfl (.done (by simp [portClose]))

section Stable

variable (hP : ReaderStable P)
include hP

theorem AtRest.hasReader {s t : State} (ht : AtRest (readPort o) s t) (h : HasReader o P s) : HasReader o P t := by
  obtain ⟨d, hd, rfl⟩ := ht
  simpa only [HasReader, reader_setPort, port_setPort_same] using hP.rest _ _ d hd h

theorem Pulled.hasReader {s t : State} {b : Byte} (ht : Pulled (readPort o) s (.byte b) t) (h : HasReader o P s)
    (k : Cursor) : HasReader o P (t.setReader o { t.reader o with buf := b, cur := k }) := by
  obtain ⟨d, hd, rfl⟩ := ht
  simpa only [HasReader, reader_setPort, reader_setReader_same, port_setReader, port_setPort_same] using
    hP.pulled _ _ b d k hd h

theorem Moved.hasReader {s t : State} {v : Word64} (ht : Moved (readPort o) v s t) (h : HasReader o P s) :
    HasReader o P (t.setReader o { t.reader o with cur := 8 }) := by
  obtain ⟨d, hd, rfl⟩ := ht
  simpa only [HasReader, reader_setPort, reader_setReader_same, port_setReader, port_setPort_same] using
    hP.moved _ _ v d hd h

theorem refill_meets (k : Cursor) {s : State} (h : HasReader o P s) :
    (refill o k s).Meets (fun _ t => HasReader o P t ∧ (t.reader o).cur = k) (HasReader o P) := by
  refine (srcRead_meets _ s).bind fun a t ht => ?_
  cases a with
  | byte b => exact .done ⟨Pulled.hasReader hP ht h k, by rw [reader_setReader_same]⟩
  | eof => exact .raised (AtRest.hasReader hP (ht.atRest fun _ => SrcAnswer.noConfusion) h)
  | ioError => exact .raised (AtRest.hasReader hP (ht.atRest fun _ => SrcAnswer.noConfusion) h)

theorem takeBit_meets {s : State} {E : State → Prop} (h : HasReader o P s) (hcur : (s.reader o).cur ≠ 8) :
    (takeBit o s).Meets (fun _ => HasReader o P) E := by
  refine .done ?_
  simpa only [HasReader, reader_setReader_same, port_setReader] using hP.taken _ _ hcur h

theorem readBit_meets {s : State} (h : HasReader o P s) :
    (readBit o s).Meets (fun _ => HasReader o P) (HasReader o P) := by
  unfold readBit
  split
  case isTrue =>
    refine (refill_meets hP 0 h).bind fun _ t ⟨ht, hcur⟩ => takeBit_meets hP ht ?_
    rw [hcur]
    decide
  case isFalse hcur => exact takeBit_meets hP h hcur

theorem readBits_meets {w : Nat} (n : Nat) (r : BitVec w) {s : State} (h : HasReader o P s) :
    (readBits o n r s).Meets (fun _ => HasReader o P) (HasReader o P) := by
  induction n generalizing r s with
  | zero => exact .done h
  | succ n ih => exact (readBit_meets hP h).bind fun b _ ht => ih (shiftInBit r b) ht

theorem readerBit_meets {s : State} (h : HasReader o P s) :
    (readerBit o s).Meets (fun _ => HasReader o P) (HasReader o P) :=
  readerGate_bind_meets h ((readBit_meets hP h).bind fun _ _ ht => .done ht)

theorem readerBits_meets (w : Nat) {s : State} (h : HasReader o P s) :
    (readerBits o w s).Meets (fun _ => HasReader o P) (HasReader o P) := by
  refine readerGate_bind_meets h ((countOperand_meets h).bind fun n t ht => ?_)
  subst ht
  exact (readBits_meets hP n 0 h).bind fun _ _ ht => .done ht

theorem readerGetpos_meets {s : State} (h : HasReader o P s) :
    (readerGetpos o s).Meets (fun _ => HasReader o P) (HasReader o P) :=
  readerGate_bind_meets h (((getPos_meets _ s).imp (fun _ _ ht => ht.hasReader hP h) fun _ ht =>
    ht.hasReader hP h).bind fun _ _ ht => .done ht)

theorem readerLen_meets {s : State} (h : HasReader o P s) :
    (readerLen o s).Meets (fun _ => HasReader o P) (HasReader o P) :=
  readerGate_bind_meets h (((getLen_meets _ s).imp (fun _ _ ht => ht.hasReader hP h) fun _ ht =>
    ht.hasReader hP h).bind fun _ _ ht => .done ht)

theorem readerSetpos_meets {s : State} (h : HasReader o P s) :
    (readerSetpos o s).Meets (fun _ => HasReader o P) (HasReader o P) := by
  refine readerGate_bind_meets h (((setPos_meets _ _ s).imp_raised fun _ ht =>
    ht.hasReader hP h).bind fun _ t ht => ?_)
  have hmoved := ht.hasReader hP h
  dsimp only
  split
  · exact .done hmoved
  · exact (refill_meets hP _ hmoved).bind fun _ _ hu => .done hu.1

theorem readerEos_meets {s : State} (h : HasReader o P s) :
    (readerEos o s).Meets (fun _ => HasReader o P) (HasReader o P) := by
  refine readerGate_bind_meets h ?_
  dsimp only
  split
  · refine (srcRead_meets _ s).bind fun a t ht => ?_
    cases a with
    | byte b => exact .done (ht.hasReader hP h 0)
    | eof => exact .done (AtRest.hasReader hP (ht.atRest fun _ => SrcAnswer.noConfusion) h)
    | ioError => exact .raised (AtRest.hasReader hP (ht.atRest fun _ => SrcAnswer.noConfusion) h)
  · exact .done h

/-- A stable property survives every command of the reader but those that construct or release it. -/
theorem commandRun_meets_hasReader {i : Instr} {s : State} (hu : i.unit = readerUnit o) (hopen : i ≠ rdOpen o)
    (hclose : i ≠ rdClose o) (hs : HasReader o P s) :
    (commandRun i s).Meets (fun _ => HasReader o P) (HasReader o P) := by
  obtain rfl | rfl | rfl | rfl | rfl | rfl | rfl | rfl | rfl := command_of_readerUnit hu
  · exact absurd rfl hopen
  · rw [commandRun_rdBit]
    exact readerBit_meets hP hs
  · rw [commandRun_rdBits32]
    exact readerBits_meets hP 32 hs
  · rw [commandRun_rdBits64]
    exact readerBits_meets hP 64 hs
  · rw [commandRun_rdGetpos]
    exact readerGetpos_meets hP hs
  · rw [commandRun_rdSetpos]
    exact readerSetpos_meets hP hs
  · rw [commandRun_rdLen]
    exact readerLen_meets hP hs
  · rw [commandRun_rdEos]
    exact readerEos_meets hP hs
  · exact absurd rfl hclose

end Stable

theorem unitPort_ne_readPort {i : Instr} (hu : i.unit ≠ readerUnit o) : unitPort i.unit ≠ some (readPort o) := by
  revert hu
  cases o <;> cases i.unit <;> decide

theorem exec_keeps_hasReader (hP : ReaderStable P) {i : Instr} {s t : State} (h : exec i s = .next t)
    (hopen : i ≠ rdOpen o) (hclose : i ≠ rdClose o) (hs : HasReader o P s) : HasReader o P t := by
  by_cases hu : i.unit = readerUnit o
  · refine exec_keeps_of_meets (commandRun_meets_hasReader hP hu hopen hclose hs) (fun v u hw => ?_)
      (fun e u hw => ?_) h
    · rwa [HasReader, reader_succeed, port_succeed]
    · rwa [HasReader, reader_raiseError, port_raiseError]
  · rwa [HasReader, exec_keeps_reader h hu, exec_keeps_port h (unitPort_ne_readPort hu)]

theorem exec_rdOpen_reader {s t : State} (h : exec (rdOpen o) s = .next t) : t.reader o = openedReader := by
  rw [readerOpenConstructs.2.2 o s] at h
  cases h
  cases o <;> rfl

/-- R151, R160, R281: `CLOSE` releases the reader, or raises and changes no record and no device. -/
theorem exec_rdClose_cases {s t : State} (h : exec (rdClose o) s = .next t) :
    (t.status = 0 ∧ (t.reader o).att = false) ∨ ∃ e, t = raiseError e s := by
  obtain ⟨v, u, hu, rfl⟩ | ⟨e, u, rfl, ht⟩ :=
    exec_next_of_meets (i := rdClose o) (by rw [commandRun_rdClose]; exact readerClose_meets s) h
  · exact .inl ⟨succeed_status v u, by rwa [reader_succeed]⟩
  · exact .inr ⟨e, ht⟩

end Reader

/-- Settles O13: a reader just constructed or just released has no unread bits, and the lookahead survives every other
command. -/
theorem readerLookaheadKept : Obligations.ReaderLookaheadKept := by
  intro i s t hs h o
  by_cases hopen : i = rdOpen o
  · subst hopen
    rw [exec_rdOpen_reader h]
    exact fun _ hlt => absurd hlt (by decide)
  by_cases hclose : i = rdClose o
  · subst hclose
    obtain ⟨-, hatt⟩ | ⟨e, rfl⟩ := exec_rdClose_cases h
    · exact fun h' => absurd h' (by simp [hatt])
    · rw [reader_raiseError, port_raiseError]
      exact hs o
  · exact exec_keeps_hasReader readerStable_lookaheadOk h hopen hclose (hs o)

/-! ### The life of the units -/

/-- R281: the life of a reader. -/
theorem exec_reader_att {i : Instr} {s t : State} (o : BitOrder) (h : exec i s = .next t) :
    (t.reader o).att =
      if i = rdOpen o then true else if i = rdClose o ∧ t.status = 0 then false else (s.reader o).att := by
  by_cases hopen : i = rdOpen o
  · subst hopen
    rw [if_pos rfl, exec_rdOpen_reader h]
    rfl
  rw [if_neg hopen]
  by_cases hclose : i = rdClose o
  · subst hclose
    obtain ⟨hstatus, hatt⟩ | ⟨e, rfl⟩ := exec_rdClose_cases h
    · rw [if_pos ⟨rfl, hstatus⟩, hatt]
    · rw [if_neg fun hc => errorCode_ne_zero e hc.2, reader_raiseError]
  · rw [if_neg fun hc => hclose hc.1]
    exact exec_keeps_hasReader (readerStable_att (s.reader o).att) h hopen hclose rfl

/-- R281: the life of a writer. -/
theorem exec_writer_att {i : Instr} {s t : State} (o : BitOrder) (h : exec i s = .next t) :
    (t.writer o).att =
      if i = wrOpen o then true
      else if (i = wrFlush o ∨ i = wrClose o) ∧ t.status = 0 then false
      else (s.writer o).att := by
  have hstable := writerStable_att o (s.writer o).att
  by_cases hopen : i = wrOpen o
  · subst hopen
    rw [if_pos rfl, exec_wrOpen_writer h]
    rfl
  rw [if_neg hopen]
  by_cases hrelease : i = wrFlush o ∨ i = wrClose o
  · obtain ⟨hstatus, u, -, -, hu⟩ | ⟨hstatus, hatt⟩ := exec_release_cases hstable h hrelease rfl
    · rw [if_pos ⟨hrelease, hstatus⟩, hu]
    · rw [if_neg fun hc => hstatus hc.2]
      exact hatt
  · obtain ⟨hflush, hclose⟩ := not_or.mp hrelease
    rw [if_neg fun hc => hrelease hc.1]
    exact exec_keeps_hasWriter hstable h hopen hflush hclose rfl

/-- Settles O22, reader and writer each by its `OPEN`, its release and its other commands. -/
theorem unitLifecycle : Obligations.UnitLifecycle :=
  fun _ _ _ o h => ⟨exec_reader_att o h, exec_writer_att o h⟩

end Sys2Proof.Machine

/-! # Commands and the devices behind the ports (spec/20_memory.md R50 to R62)

A command waits for nothing but its own unit's device, and the reference device always answers: a run `HangsOnlyOn` its
port. One rule for each way an operation is built, one lemma for each operation of the units, as for `Confined`. What a
write leaves on a device and what a `CLOSE` leaves of its unit follow; then the streams of bits: a reader gives the bits
of the bytes it pulls, one at a time, and a writer packs the bits it is given into the bytes it pushes. -/

namespace Sys2Proof.Machine

/-! ### Where a run can hang -/

/-- R60: a run begun in `s` hangs only on port `p`, and only if a free device is there; while it goes on, the device on
that port stays a reference device or a free one. -/
def Run.HangsOnlyOn {α : Type} (p : Port) (s : State) : Run α → Prop
  | .done _ t => (t.port p).isMemStream = (s.port p).isMemStream
  | .raised _ _ => True
  | .stuck f => f = .portSilent p ∧ (s.port p).isMemStream = false

/-- R60, R61: a port primitive's answer: the reference device gives one, and no device turns into one of the other
kind. -/
structure Answering {α : Type} (g : Device → Option (α × Device)) : Prop where
  silent : ∀ d, g d = none → d.isMemStream = false
  kind : ∀ d a d', g d = some (a, d') → d'.isMemStream = d.isMemStream

theorem answering_srcRead : Answering Device.srcRead where
  silent d h := by
    cases d with
    | memStream m => simp [Device.srcRead] at h
    | oracle o => rfl
  kind d a d' h := by
    rcases d with m | ⟨_ | ⟨⟨_ | _ | _, w, l⟩, ds⟩, pos, hd, sk, cl⟩ <;>
      simp only [Device.srcRead, Option.some.injEq, Prod.mk.injEq, reduceCtorEq] at h <;>
      (obtain ⟨-, rfl⟩ := h; rfl)

theorem answering_snkWrite (b : Byte) : Answering (Device.snkWrite b) where
  silent d h := by
    cases d with
    | memStream m => simp [Device.snkWrite] at h
    | oracle o => rfl
  kind d a d' h := by
    rcases d with m | ⟨_ | ⟨⟨r, _ | _ | _, l⟩, ds⟩, pos, hd, sk, cl⟩ <;>
      simp only [Device.snkWrite, Option.some.injEq, Prod.mk.injEq, reduceCtorEq] at h <;>
      (obtain ⟨-, rfl⟩ := h; rfl)

theorem Device.Rests.isMemStream_eq {d d' : Device} (h : d.Rests d') : d'.isMemStream = d.isMemStream := by
  obtain rfl | ⟨o, ds, rfl, rfl⟩ := h <;> rfl

theorem answering_getPos : Answering Device.getPos where
  silent d h := by
    cases d with
    | memStream m => simp [Device.getPos] at h
    | oracle o => rfl
  kind _ _ _ h := (Device.getPos_rests h).isMemStream_eq

theorem answering_getLen : Answering Device.getLen where
  silent d h := by
    cases d with
    | memStream m => simp [Device.getLen] at h
    | oracle o => rfl
  kind _ _ _ h := (Device.getLen_rests h).isMemStream_eq

theorem answering_setPos (v : Word64) : Answering (Device.setPos v) where
  silent d h := by
    cases d with
    | memStream m =>
      simp only [Device.setPos] at h
      split at h <;> cases h
    | oracle o => rfl
  kind d a d' h := by
    rcases d with m | ⟨_ | ⟨_, ds⟩, pos, hd, sk, cl⟩
    case oracle.nil => simp [Device.setPos] at h
    all_goals
      simp only [Device.setPos] at h
      split at h <;> (cases h; rfl)

section Rules

variable {α β : Type} {p : Port} {s t : State}

/-- A run that starts after an update which left the kind of device on the port. -/
theorem Run.HangsOnlyOn.after {r : Run α} (h : (t.port p).isMemStream = (s.port p).isMemStream)
    (hr : r.HangsOnlyOn p t) : r.HangsOnlyOn p s := by
  cases r with
  | done a u => exact Eq.trans hr h
  | raised e u => trivial
  | stuck f =>
    obtain ⟨hf, hfree⟩ := hr
    exact ⟨hf, h ▸ hfree⟩

/-- The next line of the pseudocode. -/
theorem Run.HangsOnlyOn.bind {r : Run α} {f : α → State → Run β} (hr : r.HangsOnlyOn p s)
    (hf : ∀ a t, (f a t).HangsOnlyOn p t) : (r.bind f).HangsOnlyOn p s := by
  cases r with
  | done a t => exact .after hr (hf a t)
  | raised e t => trivial
  | stuck x => exact hr

theorem Run.HangsOnlyOn.done (a : α) (s : State) : (Run.done a s).HangsOnlyOn p s := rfl

theorem Run.HangsOnlyOn.done_setReader (a : α) (o : BitOrder) (u : BitUnit) :
    (Run.done a (s.setReader o u)).HangsOnlyOn p s :=
  congrArg _ (port_setReader s o u p)

theorem Run.HangsOnlyOn.done_setWriter (a : α) (o : BitOrder) (u : BitUnit) :
    (Run.done a (s.setWriter o u)).HangsOnlyOn p s :=
  congrArg _ (port_setWriter s o u p)

theorem Run.HangsOnlyOn.raised (e : ErrorKind) (s t : State) : (Run.raised e t : Run α).HangsOnlyOn p s := trivial

/-- A transaction on the port. -/
theorem Run.HangsOnlyOn.ask {g : Device → Option (α × Device)} (hg : Answering g) :
    (answered p s (g (s.port p))).HangsOnlyOn p s := by
  cases h : g (s.port p) with
  | none => exact ⟨rfl, hg.silent _ h⟩
  | some x => exact (congrArg _ (port_setPort_same s p x.2)).trans (hg.kind _ _ _ h)

end Rules

/-! ### The port primitives and the checks -/

section Operations

variable {p : Port} {s : State}

theorem srcRead_hangsOnlyOn : (srcRead p s).HangsOnlyOn p s := .ask answering_srcRead

theorem snkWrite_hangsOnlyOn (b : Byte) : (snkWrite p b s).HangsOnlyOn p s := by
  refine .bind (.ask (answering_snkWrite b)) fun a t => ?_
  cases a with
  | ok => exact .done () t
  | endOfStream => exact .raised _ t t
  | ioError => exact .raised _ t t

theorem getPos_hangsOnlyOn : (getPos p s).HangsOnlyOn p s := by
  refine .bind (.ask answering_getPos) fun a t => ?_
  cases a with
  | value v => exact .done v t
  | notSeekable => exact .raised _ t t

theorem setPos_hangsOnlyOn (v : Word64) : (setPos p v s).HangsOnlyOn p s := by
  refine .bind (.ask (answering_setPos v)) fun a t => ?_
  cases a with
  | ok => exact .done () t
  | notSeekable => exact .raised _ t t

theorem getLen_hangsOnlyOn : (getLen p s).HangsOnlyOn p s := by
  refine .bind (.ask answering_getLen) fun a t => ?_
  cases a with
  | value v => exact .done v t
  | notSeekable => exact .raised _ t t

/-- R58, entry 20: a close is always answered. -/
theorem portClose_hangsOnlyOn {α : Type} (a : α) : (Run.done a (portClose p s)).HangsOnlyOn p s := by
  refine (congrArg _ (portClose_port p s)).trans ?_
  cases s.port p <;> rfl

theorem gate_hangsOnlyOn (u : BitUnit) : (gate u s).HangsOnlyOn p s := by
  unfold gate
  split
  · exact .done () s
  · exact .raised _ s s

theorem countOperand_hangsOnlyOn (limit : Nat) : (countOperand limit s).HangsOnlyOn p s := by
  unfold countOperand
  split
  · exact .done _ s
  · exact .raised _ s s

/-! ### The readers -/

variable (o : BitOrder)

theorem refill_hangsOnlyOn (k : Cursor) : (refill o k s).HangsOnlyOn (readPort o) s := by
  refine .bind srcRead_hangsOnlyOn fun a t => ?_
  cases a with
  | byte b => exact .done_setReader ..
  | eof => exact .raised _ t t
  | ioError => exact .raised _ t t

theorem takeBit_hangsOnlyOn : (takeBit o s).HangsOnlyOn p s := .done_setReader ..

theorem readBit_hangsOnlyOn : (readBit o s).HangsOnlyOn (readPort o) s := by
  unfold readBit
  split
  · exact .bind (refill_hangsOnlyOn o 0) fun _ _ => takeBit_hangsOnlyOn o
  · exact takeBit_hangsOnlyOn o

theorem readBits_hangsOnlyOn {w : Nat} (n : Nat) (r : BitVec w) :
    (readBits o n r s).HangsOnlyOn (readPort o) s := by
  induction n generalizing r s with
  | zero => exact .done r s
  | succ n ih => exact .bind (readBit_hangsOnlyOn o) fun b _ => ih (shiftInBit r b)

theorem readerBits_hangsOnlyOn (w : Nat) : (readerBits o w s).HangsOnlyOn (readPort o) s :=
  .bind (gate_hangsOnlyOn _) fun _ _ => .bind (countOperand_hangsOnlyOn w) fun n _ =>
    .bind (readBits_hangsOnlyOn o n 0) fun _ _ => .done ..

theorem readerSetpos_hangsOnlyOn : (readerSetpos o s).HangsOnlyOn (readPort o) s := by
  refine .bind (gate_hangsOnlyOn _) fun _ _ => .bind (setPos_hangsOnlyOn _) fun _ t => ?_
  dsimp only
  split
  · exact .done_setReader ..
  · exact .after (congrArg _ (port_setReader ..)) (.bind (refill_hangsOnlyOn o _) fun _ _ => .done ..)

theorem readerEos_hangsOnlyOn : (readerEos o s).HangsOnlyOn (readPort o) s := by
  refine .bind (gate_hangsOnlyOn _) fun _ t => ?_
  split
  · refine .bind srcRead_hangsOnlyOn fun a u => ?_
    cases a with
    | byte b => exact .done_setReader ..
    | eof => exact .done _ u
    | ioError => exact .raised _ u u
  · exact .done _ t

theorem readerClose_hangsOnlyOn : (readerClose o s).HangsOnlyOn (readPort o) s :=
  .bind (gate_hangsOnlyOn _) fun _ _ => .after (congrArg _ (port_setReader ..)) (portClose_hangsOnlyOn none)

/-- A reader's command waits for the reader's device only. -/
theorem commandRun_hangsOnlyOn_readPort {i : Instr} (hi : i.unit = readerUnit o) :
    (commandRun i s).HangsOnlyOn (readPort o) s := by
  obtain rfl | rfl | rfl | rfl | rfl | rfl | rfl | rfl | rfl := command_of_readerUnit hi
  · rw [commandRun_rdOpen]
    exact .done_setReader ..
  · rw [commandRun_rdBit]
    exact .bind (gate_hangsOnlyOn _) fun _ _ => .bind (readBit_hangsOnlyOn o) fun _ _ => .done ..
  · rw [commandRun_rdBits32]
    exact readerBits_hangsOnlyOn o 32
  · rw [commandRun_rdBits64]
    exact readerBits_hangsOnlyOn o 64
  · rw [commandRun_rdGetpos]
    exact .bind (gate_hangsOnlyOn _) fun _ _ => .bind getPos_hangsOnlyOn fun _ _ => .done ..
  · rw [commandRun_rdSetpos]
    exact readerSetpos_hangsOnlyOn o
  · rw [commandRun_rdLen]
    exact .bind (gate_hangsOnlyOn _) fun _ _ => .bind getLen_hangsOnlyOn fun _ _ => .done ..
  · rw [commandRun_rdEos]
    exact readerEos_hangsOnlyOn o
  · rw [commandRun_rdClose]
    exact readerClose_hangsOnlyOn o

/-! ### The writers -/

theorem emit_hangsOnlyOn : (emit o s).HangsOnlyOn (writePort o) s :=
  .bind (snkWrite_hangsOnlyOn _) fun _ _ => .done_setWriter ..

theorem placeBit_hangsOnlyOn (v : Bool) : (placeBit o v s).HangsOnlyOn (writePort o) s := by
  unfold placeBit
  dsimp only
  split
  · exact .after (congrArg _ (port_setWriter ..)) (emit_hangsOnlyOn o)
  · exact .done_setWriter ..

theorem writeBit_hangsOnlyOn (v : Bool) : (writeBit o v s).HangsOnlyOn (writePort o) s := by
  unfold writeBit
  split
  · exact .bind (emit_hangsOnlyOn o) fun _ _ => placeBit_hangsOnlyOn o v
  · exact placeBit_hangsOnlyOn o v

theorem writeField_hangsOnlyOn (field : Word64) (n : Nat) :
    (writeField o field n s).HangsOnlyOn (writePort o) s := by
  induction n generalizing s with
  | zero => exact .done () s
  | succ n ih => exact .bind (writeBit_hangsOnlyOn o _) fun _ _ => ih

theorem writeRepeat_hangsOnlyOn (v : Bool) (n : Nat) : (writeRepeat o v n s).HangsOnlyOn (writePort o) s := by
  induction n generalizing s with
  | zero => exact .done () s
  | succ n ih => exact .bind (writeBit_hangsOnlyOn o v) fun _ _ => ih

theorem release_hangsOnlyOn : (release o s).HangsOnlyOn (writePort o) s := by
  refine .bind ?_ fun _ _ => .done_setWriter ..
  unfold flushBits
  split
  · exact .done () s
  · exact emit_hangsOnlyOn o

/-- The shape of `BITS32`, `BITS64` and `REP`: a count, then that many bits. -/
theorem writerCounted_hangsOnlyOn {limit : Nat} {w : Nat → State → Run Unit}
    (hw : ∀ n t, (w n t).HangsOnlyOn (writePort o) t) :
    ((gate (s.writer o) s).bind fun _ s1 => (countOperand limit s1).bind fun n s2 =>
      (w n s2).bind fun _ s3 => .done (none : Option Word64) s3).HangsOnlyOn (writePort o) s :=
  .bind (gate_hangsOnlyOn _) fun _ _ => .bind (countOperand_hangsOnlyOn limit) fun n t =>
    .bind (hw n t) fun _ _ => .done ..

/-- A writer's command waits for the writer's device only. -/
theorem commandRun_hangsOnlyOn_writePort {i : Instr} (hi : i.unit = writerUnit o) :
    (commandRun i s).HangsOnlyOn (writePort o) s := by
  obtain rfl | rfl | rfl | rfl | rfl | rfl | rfl | rfl | rfl := command_of_writerUnit hi
  · rw [commandRun_wrOpen]
    exact .done_setWriter ..
  · rw [commandRun_wrBit]
    exact .bind (gate_hangsOnlyOn _) fun _ _ => .bind (writeBit_hangsOnlyOn o _) fun _ _ => .done ..
  · rw [commandRun_wrBits32]
    exact writerCounted_hangsOnlyOn o fun n t => writeField_hangsOnlyOn o (zext64 (arg0Low32 t)) n
  · rw [commandRun_wrBits64]
    exact writerCounted_hangsOnlyOn o fun n t => writeField_hangsOnlyOn o t.arg0 n
  · rw [commandRun_wrRep]
    exact writerCounted_hangsOnlyOn o fun n t => writeRepeat_hangsOnlyOn o (arg0Bit t) n
  · rw [commandRun_wrGetpos]
    exact .bind (gate_hangsOnlyOn _) fun _ _ => .bind getPos_hangsOnlyOn fun _ _ => .done ..
  · rw [commandRun_wrLen]
    exact .bind (gate_hangsOnlyOn _) fun _ _ => .bind getLen_hangsOnlyOn fun _ _ => .done ..
  · rw [commandRun_wrFlush]
    exact .bind (gate_hangsOnlyOn _) fun _ _ => .bind (release_hangsOnlyOn o) fun _ _ => .done ..
  · rw [commandRun_wrClose]
    exact .bind (gate_hangsOnlyOn _) fun _ _ => .bind (release_hangsOnlyOn o) fun _ _ => portClose_hangsOnlyOn none

/-! ### The varint and endian units -/

theorem writeBytes_hangsOnlyOn (bs : List Byte) : (writeBytes p bs s).HangsOnlyOn p s := by
  induction bs generalizing s with
  | nil => exact .done () s
  | cons b bs ih => exact .bind (snkWrite_hangsOnlyOn b) fun _ _ => ih

theorem decodeLoop_hangsOnlyOn (fuel k : Nat) (acc : Word64) : (decodeLoop fuel k acc s).HangsOnlyOn .p1 s := by
  induction fuel generalizing k acc s with
  | zero => exact .raised _ s s
  | succ fuel ih =>
    refine .bind srcRead_hangsOnlyOn fun a t => ?_
    cases a with
    | byte b =>
      dsimp only
      split
      · exact ih (k + 1) _
      · exact .done _ t
    | eof => exact .raised _ t t
    | ioError => exact .raised _ t t

theorem fromBuffer_eq_stuck {m : Nat} {f : Fault} (h : fromBuffer m s = .stuck f) :
    f = .bufAbsent ∧ s.bufBytes < s.blen.toNat := by
  unfold fromBuffer at h
  split at h
  case isTrue => cases h
  case isFalse hrange =>
    split at h
    · cases h
      exact ⟨rfl, by omega⟩
    · cases h

end Operations

/-- R51, R60: a command of a unit with a port waits for the device on that port only. -/
theorem commandRun_hangsOnlyOn {i : Instr} {p : Port} (hp : unitPort i.unit = some p) (s : State) :
    (commandRun i s).HangsOnlyOn p s := by
  cases hu : i.unit <;> rw [hu] at hp <;> cases hp
  case varintEncoder.refl =>
    cases i with
    | venc => exact .bind (writeBytes_hangsOnlyOn _) fun _ _ => .done ..
    | vencb => rfl
    | vcnt => exact .done ..
    | _ => cases hu
  case varintDecoder.refl =>
    cases i with
    | vdec => exact .bind (decodeLoop_hangsOnlyOn _ 0 0) fun _ _ => .done ..
    | _ => cases hu
  case bitstreamReaderMsb.refl => exact commandRun_hangsOnlyOn_readPort .msb hu
  case bitstreamReaderLsb.refl => exact commandRun_hangsOnlyOn_readPort .lsb hu
  case bitstreamWriterMsb.refl => exact commandRun_hangsOnlyOn_writePort .msb hu
  case bitstreamWriterLsb.refl => exact commandRun_hangsOnlyOn_writePort .lsb hu

/-- R62, entry 12: a command of a unit without a port stops only when its bytes would lie outside `BUF`. -/
theorem commandRun_stuck_of_no_port {i : Instr} {s : State} {f : Fault} (hp : unitPort i.unit = none)
    (h : commandRun i s = .stuck f) :
    f = .bufAbsent ∧ s.bufBytes < s.blen.toNat ∧ i ∈ [Instr.frombe16, .frombe32, .frombe64] := by
  cases i with
  | swap16 | swap32 | swap64 | tobe16 | tobe32 | tobe64 => cases h
  | frombe16 | frombe32 | frombe64 =>
    obtain ⟨hf, hblen⟩ := fromBuffer_eq_stuck h
    exact ⟨hf, hblen, by decide⟩
  | _ => cases hp

theorem exists_oracle_of_isMemStream {d : Device} (h : d.isMemStream = false) : ∃ o, d = .oracle o := by
  cases d with
  | memStream m => cases h
  | oracle o => exact ⟨o, rfl⟩

/-- Settles O23, by whether the command's unit has a port. -/
theorem commandsHangOnlyOnSilentDevices : Obligations.CommandsHangOnlyOnSilentDevices := by
  refine fun i s => ⟨exec_ne_refused i s, fun f hf => ?_⟩
  rw [exec_eq_finish] at hf
  have hstuck := finish_eq_fault.mp hf
  cases hp : unitPort i.unit with
  | none => exact .inr (commandRun_stuck_of_no_port hp hstuck)
  | some p =>
    have hhangs := commandRun_hangsOnlyOn hp s
    rw [hstuck] at hhangs
    obtain ⟨hfault, hfree⟩ := hhangs
    obtain ⟨d, hd⟩ := exists_oracle_of_isMemStream hfree
    exact .inl ⟨p, d, hfault, rfl, hd⟩

/-- Settles O24: of the causes O23 leaves for a fault, reference devices exclude one and a legal `BLEN` the other. -/
theorem referenceDevicesLetCommandsComplete : Obligations.ReferenceDevicesLetCommandsComplete := by
  intro i s hports hblen
  obtain ⟨hrefused, hfault⟩ := commandsHangOnlyOnSilentDevices i s
  cases h : exec i s with
  | next t => exact ⟨t, rfl⟩
  | refused x => exact absurd h (hrefused x)
  | fault f =>
    obtain ⟨p, d, -, -, hd⟩ | ⟨-, hlt, -⟩ := hfault f h
    · have hmem := hports p
      rw [hd] at hmem
      cases hmem
    · omega

/-! ### What a write leaves on a device -/

/-- R61: the written data is as long as it was, or reaches just past the position. -/
theorem putByte_length (data : List Byte) (pos : Nat) (b : Byte) :
    (putByte data pos b).length = max data.length (pos + 1) := by
  unfold putByte
  split
  · rw [List.length_set]
    omega
  · simp only [List.length_append, List.length_replicate, List.length_singleton]
    omega

/-- R61: the byte at each place of the written data: the new one at the position, the old ones where they stood, zeros
in the gap. -/
theorem putByte_getElem? (data : List Byte) (pos : Nat) (b : Byte) {j : Nat} (hj : j < max data.length (pos + 1)) :
    (putByte data pos b)[j]? = if j = pos then some b else if j < data.length then data[j]? else some 0 := by
  unfold putByte
  by_cases hpos : pos < data.length
  · rw [if_pos hpos]
    by_cases heq : j = pos
    · rw [if_pos heq, heq, List.getElem?_set_self hpos]
    · rw [if_neg heq, if_pos (by omega), List.getElem?_set_ne (Ne.symm heq)]
  · have hgap : (data ++ List.replicate (pos - data.length) (0 : Byte)).length = pos := by
      rw [List.length_append, List.length_replicate]
      omega
    rw [if_neg hpos]
    by_cases heq : j = pos
    · rw [if_pos heq, heq, List.getElem?_append_right hgap.le, hgap, Nat.sub_self]
      rfl
    · rw [if_neg heq, List.getElem?_append_left (by omega)]
      by_cases hin : j < data.length
      · rw [if_pos hin, List.getElem?_append_left hin]
      · rw [if_neg hin, List.getElem?_append_right (by omega), List.getElem?_replicate_of_lt (by omega)]

/-- R61: an open reference device below its capacity takes the byte. -/
theorem memStream_snkWrite_of_room {m : MemStream} (hopen : m.closed = false) (hroom : ∀ k, m.cap = some k → m.pos < k)
    (b : Byte) :
    (Device.memStream m).snkWrite b =
      some (.ok, .memStream { m with data := putByte m.data m.pos b, pos := m.pos + 1 }) := by
  have hfull : m.full = false := by
    unfold MemStream.full
    split
    case h_1 k hk => simpa using hroom k hk
    case h_2 => rfl
  simp [Device.snkWrite, MemStream.snkWrite, hopen, hfull]

/-- R54, R59: what a free device's write leaves, for each of its answers. -/
theorem oracle_snkWrite_cases {o : OracleDevice} {b : Byte} {a : SnkAnswer} {d : Device}
    (h : (Device.oracle o).snkWrite b = some (a, d)) :
    ∃ e : OracleDevice, d = .oracle e ∧
      ((a = .ok ∧ e.held = hold o.held o.pos b ∧ e.pos = o.pos + 1) ∨ (a ≠ .ok ∧ e.held = o.held)) := by
  obtain ⟨_ | ⟨⟨r, _ | _ | _, l⟩, ds⟩, pos, hd, sk, cl⟩ := o <;>
    simp only [Device.snkWrite, Option.some.injEq, Prod.mk.injEq, reduceCtorEq] at h <;>
    obtain ⟨rfl, rfl⟩ := h
  · exact ⟨_, rfl, .inl ⟨rfl, rfl, rfl⟩⟩
  · exact ⟨_, rfl, .inr ⟨SnkAnswer.noConfusion, rfl⟩⟩
  · exact ⟨_, rfl, .inr ⟨SnkAnswer.noConfusion, rfl⟩⟩

/-- R61: a reference device that fails a write is unchanged. -/
theorem memStream_snkWrite_failed {m : MemStream} {b : Byte} {a : SnkAnswer} {d : Device}
    (h : (Device.memStream m).snkWrite b = some (a, d)) (ha : a ≠ .ok) : d = .memStream m := by
  simp only [Device.snkWrite, Option.some.injEq, Prod.mk.injEq] at h
  obtain ⟨rfl, rfl⟩ := h
  unfold MemStream.snkWrite at ha ⊢
  split
  · rfl
  · split
    · rfl
    case isFalse hopen hroom =>
      rw [if_neg hopen, if_neg hroom] at ha
      exact absurd rfl ha

/-- Settles O25, by the kind of device and its answer. -/
theorem deviceWrites : Obligations.DeviceWrites := by
  refine ⟨fun m b hopen hroom => ?taken, fun o b d h => ?held, fun o b a d h ha => ?failed,
    fun m b a d h ha => memStream_snkWrite_failed h ha⟩
  case taken =>
    refine ⟨_, memStream_snkWrite_of_room hopen hroom b, putByte_length .., ?_, fun j hj hne => ?_, fun j hle hj => ?_⟩
    · rw [putByte_getElem? _ _ _ (by omega), if_pos rfl]
    · rw [putByte_getElem? _ _ _ (by omega), if_neg hne, if_pos hj]
    · rw [putByte_getElem? _ _ _ (by omega), if_neg (by omega), if_neg (by omega)]
  case held =>
    obtain ⟨e, rfl, ⟨-, hheld, hpos⟩ | ⟨hne, -⟩⟩ := oracle_snkWrite_cases h
    · refine ⟨e, rfl, ?_, hpos, fun c hc => ?_⟩
      · rw [hheld, heldAt_hold_same]
      · rw [hheld, heldAt_hold_other _ _ _ _ hc]
    · exact absurd rfl hne
  case failed =>
    obtain ⟨e, rfl, ⟨rfl, -⟩ | ⟨-, hheld⟩⟩ := oracle_snkWrite_cases h
    · exact absurd rfl ha
    · exact ⟨e, rfl, hheld⟩

/-! ### Closing a unit -/

/-- A command whose pseudocode raises ends with that error (R257). -/
theorem exec_of_commandRun_raised {i : Instr} {s t : State} {e : ErrorKind} (h : commandRun i s = .raised e t) :
    exec i s = .next (raiseError e t) := by
  rw [exec_eq_finish, h]
  rfl

/-- A command whose pseudocode waits for ever has no final state (R60). -/
theorem exec_of_commandRun_stuck {i : Instr} {s : State} {f : Fault} (h : commandRun i s = .stuck f) :
    exec i s = .fault f := by
  rw [exec_eq_finish, h]
  rfl

/-- R140, R180: an open unit passes the gate. -/
theorem gate_open {u : BitUnit} (h : u.att = true) (s : State) : gate u s = .done () s := if_pos h

theorem readerClose_open {o : BitOrder} {s : State} (h : (s.reader o).att = true) :
    readerClose o s = .done none
      ((s.setPort (readPort o) (s.port (readPort o)).close).setReader o { s.reader o with att := false }) := by
  simp only [readerClose, gate_open h, Run.bind_done, portClose, port_setReader, setPort_setReader]

/-- Settles O40: past the gate the pseudocode is the release and the close of the device. -/
theorem readerCloseCommand : Obligations.ReaderCloseCommand :=
  ⟨rfl, rfl, fun o s h =>
    exec_of_commandRun_done ((congrFun (commandRun_rdClose o) s).trans (readerClose_open h))⟩

/-- R191: past the gate a writer's `CLOSE` releases it and then closes the device. -/
theorem commandRun_wrClose_open {o : BitOrder} {s : State} (h : (s.writer o).att = true) :
    commandRun (wrClose o) s = (release o s).bind fun _ t => .done none (portClose (writePort o) t) := by
  rw [commandRun_wrClose]
  simp only [writerClose, gate_open h, Run.bind_done]

/-- R190: a writer at a boundary is released without a transaction. -/
theorem release_boundary {o : BitOrder} {s : State} (h : (s.writer o).cur = 0) :
    release o s = .done () (s.setWriter o { s.writer o with att := false }) := by
  simp only [release, flushBits_boundary h, Run.bind_done]

/-- R190: pending bits are emitted before the writer is released. -/
theorem release_pending {o : BitOrder} {s : State} (h : (s.writer o).cur ≠ 0) :
    release o s = (emit o s).bind fun _ t => .done () (t.setWriter o { t.writer o with att := false }) := by
  simp only [release, flushBits_pending h]

/-- R182, R190: the pending byte taken, the writer is empty and released. -/
theorem release_ok {o : BitOrder} {s : State} {d : Device} (h : (s.writer o).cur ≠ 0)
    (hd : (s.port (writePort o)).snkWrite (s.writer o).buf = some (.ok, d)) :
    release o s =
      .done () ((s.setPort (writePort o) d).setWriter o { att := false, buf := 0, cur := 0 }) := by
  simp only [release_pending h, emit_ok hd, Run.bind_done, writer_setWriter_same, setWriter_setWriter]

/-- R182, R190: the pending byte refused, the record is as it was. -/
theorem release_error {o : BitOrder} {s : State} {a : SnkAnswer} {e : ErrorKind} {d : Device}
    (h : (s.writer o).cur ≠ 0) (hd : (s.port (writePort o)).snkWrite (s.writer o).buf = some (a, d))
    (he : a.error? = some e) : release o s = .raised e (s.setPort (writePort o) d) := by
  rw [release_pending h, emit_error hd he, Run.bind_raised]

theorem release_silent {o : BitOrder} {s : State} (h : (s.writer o).cur ≠ 0)
    (hd : (s.port (writePort o)).snkWrite (s.writer o).buf = none) :
    release o s = .stuck (.portSilent (writePort o)) := by
  rw [release_pending h, emit_silent hd, Run.bind_stuck]

/-- Settles O51: the release at a boundary and for each answer of the sink, then the close. -/
theorem writerCloseCommand : Obligations.WriterCloseCommand := by
  refine ⟨rfl, rfl, fun o s hatt => ⟨fun hcur => ?boundary, fun hcur => ?pending⟩⟩
  case boundary =>
    have hrun : commandRun (wrClose o) s = .done none
        ((s.setPort (writePort o) (s.port (writePort o)).close).setWriter o { s.writer o with att := false }) := by
      rw [commandRun_wrClose_open hatt, release_boundary (Fin.ext hcur), Run.bind_done, portClose, port_setWriter,
        setPort_setWriter]
    exact exec_of_commandRun_done hrun
  case pending =>
    have hne : (s.writer o).cur ≠ 0 := Fin.pos_iff_ne_zero.mp hcur
    refine ⟨fun d hd => ?_, fun a e d hd he => ?_, fun hd => ?_⟩
    · have hrun : commandRun (wrClose o) s = .done none
          ((s.setPort (writePort o) d.close).setWriter o { att := false, buf := 0, cur := 0 }) := by
        rw [commandRun_wrClose_open hatt, release_ok hne hd, Run.bind_done, portClose, port_setWriter,
          port_setPort_same, setPort_setWriter, setPort_setPort]
      exact exec_of_commandRun_done hrun
    · refine exec_of_commandRun_raised ?_
      rw [commandRun_wrClose_open hatt, release_error hne hd he, Run.bind_raised]
    · refine exec_of_commandRun_stuck ?_
      rw [commandRun_wrClose_open hatt, release_silent hne hd, Run.bind_stuck]

/-! ### Bits as numbers (spec/20_memory.md R65, R66) -/

/-- R65: the bits of a byte in stream order, by their places. -/
theorem bitsOfByte_eq_map (o : BitOrder) (b : Byte) : bitsOfByte o b = (List.range 8).map (streamBit o b) := by
  cases o <;> rfl

@[simp] theorem bitsOfByte_length (o : BitOrder) (b : Byte) : (bitsOfByte o b).length = 8 := by cases o <;> rfl

theorem valueOfBits_concat (l : List Bool) (b : Bool) : valueOfBits (l ++ [b]) = 2 * valueOfBits l + b.toNat := by
  simp [valueOfBits]

theorem valueOfBits_lt (l : List Bool) : valueOfBits l < 2 ^ l.length := by
  induction l using List.reverseRecOn with
  | nil => exact Nat.one_pos
  | append_singleton l b ih =>
    have hb := b.toNat_lt
    rw [valueOfBits_concat, List.length_append, List.length_singleton, Nat.pow_succ]
    omega

/-- R145: a bit shifted in doubles the number and adds the bit. -/
theorem shiftInBit_ofNat (w a : Nat) (b : Bool) :
    shiftInBit (BitVec.ofNat w a) b = BitVec.ofNat w (2 * a + b.toNat) := by
  refine BitVec.eq_of_getLsbD_eq fun i hi => ?_
  rw [BitVec.getLsbD_ofNat, shiftInBit, BitVec.getLsbD_or, BitVec.getLsbD_shiftLeft, BitVec.getLsbD_ofNat]
  cases i with
  | zero => cases b <;> simp [hi]
  | succ i =>
    have hbit : BitVec.getLsbD (if b then 1#w else 0#w) (i + 1) = false := by cases b <;> simp
    have hhalf : (2 * a + b.toNat) / 2 = a := by
      have hb := b.toNat_lt
      omega
    rw [hbit, Nat.testBit_succ, hhalf]
    simp [hi, Nat.lt_of_succ_lt hi]

theorem foldl_shiftInBit_ofNat (w a : Nat) (l : List Bool) :
    l.foldl shiftInBit (BitVec.ofNat w a) = BitVec.ofNat w (l.foldl (fun acc b => 2 * acc + b.toNat) a) := by
  induction l generalizing a with
  | nil => rfl
  | cons b l ih => rw [List.foldl_cons, List.foldl_cons, shiftInBit_ofNat, ih]

/-- R96, R145: bits that fit the width, shifted in first bit highest, are the number they write. -/
theorem zext64_foldl_shiftInBit {w : Nat} {l : List Bool} (h : l.length ≤ w) :
    zext64 (l.foldl shiftInBit (0 : BitVec w)) = BitVec.ofNat 64 (valueOfBits l) := by
  have hlt : valueOfBits l < 2 ^ w := (valueOfBits_lt l).trans_le (Nat.pow_le_pow_right (by decide) h)
  have hfold : l.foldl shiftInBit (0 : BitVec w) = BitVec.ofNat w (valueOfBits l) := foldl_shiftInBit_ofNat w 0 l
  apply BitVec.eq_of_toNat_eq
  rw [hfold, zext64, BitVec.toNat_setWidth, BitVec.toNat_ofNat, BitVec.toNat_ofNat, Nat.mod_eq_of_lt hlt]

/-! ### A reader's stream (spec/41_bitreader.md R141, R145) -/

/-- R31: inside a byte the next unread bit is the one at the cursor. -/
theorem unreadBits_inside (o : BitOrder) {u : BitUnit} (h : u.cur ≠ 8) :
    unreadBits o u = streamBit o u.buf u.cur.val :: unreadBits o { u with cur := u.cur + 1 } := by
  have hlt : u.cur.val < 8 := Fin.lt_last_iff_ne_last.mpr h
  have hval : (u.cur + 1).val = u.cur.val + 1 := Cursor.val_add_one h
  rw [unreadBits, List.drop_eq_getElem_cons (by rwa [bitsOfByte_length]), unreadBits, hval]
  simp [bitsOfByte_eq_map]

theorem unreadBits_boundary (o : BitOrder) {u : BitUnit} (h : u.cur = 8) : unreadBits o u = [] := by
  rw [unreadBits, h]
  exact List.drop_eq_nil_of_le (bitsOfByte_length o u.buf).le

/-- R141: the bits of a byte just pulled, its first bit taken. -/
theorem bitsOfByte_eq_cons (o : BitOrder) (att : Bool) (b : Byte) :
    bitsOfByte o b = streamBit o b 0 :: unreadBits o { att := att, buf := b, cur := 1 } :=
  unreadBits_inside o (u := { att := att, buf := b, cur := 0 }) (show (0 : Cursor) ≠ 8 by decide)

/-- R297: a bit inside a byte takes no pull. -/
theorem pullsNeeded_inside {c : Cursor} (h : c ≠ 8) (n : Nat) : pullsNeeded c (n + 1) = pullsNeeded (c + 1) n := by
  rw [pullsNeeded, pullsNeeded, Cursor.val_add_one h, Nat.add_right_comm n 1 c.val, Nat.add_assoc n]

/-- R297: a bit at a boundary takes one pull. -/
theorem pullsNeeded_boundary (n : Nat) : pullsNeeded 8 (n + 1) = pullsNeeded 1 n + 1 := by
  change (n + 1 + 8 - 8 + 7) / 8 = (n + 1 - 8 + 7) / 8 + 1
  omega

theorem pullsNeeded_zero (c : Cursor) : pullsNeeded c 0 = 0 := by
  have hc := c.isLt
  unfold pullsNeeded
  omega

theorem cursorAfter_inside {c : Cursor} (h : c ≠ 8) (n : Nat) : cursorAfter c (n + 1) = cursorAfter (c + 1) n := by
  have hval := Cursor.val_add_one h
  have hlt : c.val < 8 := Fin.lt_last_iff_ne_last.mpr h
  apply Fin.ext
  cases n with
  | zero =>
    change (c.val + 0) % 8 + 1 = (c + 1).val
    omega
  | succ n =>
    change (c.val + (n + 1)) % 8 + 1 = ((c + 1).val + n) % 8 + 1
    omega

theorem cursorAfter_boundary (n : Nat) : cursorAfter 8 (n + 1) = cursorAfter 1 n := by
  apply Fin.ext
  cases n with
  | zero => rfl
  | succ n =>
    change (8 + (n + 1)) % 8 + 1 = (1 + n) % 8 + 1
    omega

theorem pullBytes_zero_eq_some {d e : Device} {bs : List Byte} (h : pullBytes 0 d = some (bs, e)) :
    bs = [] ∧ e = d := by
  cases h
  exact ⟨rfl, rfl⟩

/-- The first of the bytes a device gives, and the others. -/
theorem pullBytes_succ_eq_some {n : Nat} {d e : Device} {bs : List Byte} (h : pullBytes (n + 1) d = some (bs, e)) :
    ∃ b d1 bs1, d.srcRead = some (.byte b, d1) ∧ pullBytes n d1 = some (bs1, e) ∧ bs = b :: bs1 := by
  rw [pullBytes] at h
  split at h
  case h_1 b d1 hd =>
    split at h
    case h_1 bs1 d2 hbs =>
      cases h
      exact ⟨b, d1, bs1, hd, hbs, rfl⟩
    case h_2 => cases h
  case h_2 => cases h

/-- R141, R145: the loop over `n` bits of a source that gives the bytes they need: the bits of the stream in order,
shifted in one after another, the last pulled byte buffered and the cursor where they end. -/
theorem readBits_of_pullBytes {o : BitOrder} {w : Nat} (n : Nat) (r : BitVec w) {s : State} {bs : List Byte}
    {d : Device} (h : pullBytes (pullsNeeded (s.reader o).cur n) (s.port (readPort o)) = some (bs, d)) :
    readBits o n r s =
      .done (((unreadBits o (s.reader o) ++ bitsOfBytes o bs).take n).foldl shiftInBit r)
        ((s.setPort (readPort o) d).setReader o
          { s.reader o with buf := bs.getLastD (s.reader o).buf, cur := cursorAfter (s.reader o).cur n }) := by
  induction n generalizing r s bs with
  | zero =>
    rw [pullsNeeded_zero] at h
    obtain ⟨rfl, rfl⟩ := pullBytes_zero_eq_some h
    rw [setPort_port]
    exact congrArg (Run.done r) (setReader_reader s o).symm
  | succ n ih =>
    by_cases hcur : (s.reader o).cur = 8
    · rw [hcur, pullsNeeded_boundary] at h
      obtain ⟨b, d1, bs1, hd, hbs, rfl⟩ := pullBytes_succ_eq_some h
      have hbits : bitsOfBytes o (b :: bs1) = bitsOfByte o b ++ bitsOfBytes o bs1 := rfl
      rw [readBits_succ, readBit_boundary hcur hd, Run.bind_done, ih _ (bs := bs1) (by simpa using hbs),
        unreadBits_boundary o hcur, hcur, cursorAfter_boundary, hbits,
        bitsOfByte_eq_cons o (s.reader o).att b, List.nil_append, List.cons_append, List.take_succ_cons,
        List.foldl_cons, List.getLastD_cons]
      simp [setPort_setReader]
    · rw [pullsNeeded_inside hcur] at h
      rw [readBits_succ, readBit_inside hcur, Run.bind_done, ih _ (bs := bs) (by simpa using h),
        unreadBits_inside o hcur, cursorAfter_inside hcur, List.cons_append, List.take_succ_cons, List.foldl_cons]
      simp [setPort_setReader]

/-- R145, R146: an open reader's `BITS` with a legal count, at either width. -/
theorem readerBits_of_pullBytes {o : BitOrder} {w n : Nat} {s : State} {bs : List Byte} {d : Device}
    (hatt : (s.reader o).att = true) (hn : s.arg1.toInt = n) (hw : n ≤ w)
    (h : pullBytes (pullsNeeded (s.reader o).cur n) (s.port (readPort o)) = some (bs, d)) :
    readerBits o w s =
      .done (some (BitVec.ofNat 64 (valueOfBits ((unreadBits o (s.reader o) ++ bitsOfBytes o bs).take n))))
        ((s.setPort (readPort o) d).setReader o
          { att := true, buf := bs.getLastD (s.reader o).buf, cur := cursorAfter (s.reader o).cur n }) := by
  have hcount : countOperand w s = .done n s := countOperand_eq_done.mpr ⟨hn, hw, rfl⟩
  have hlength := (List.length_take_le n (unreadBits o (s.reader o) ++ bitsOfBytes o bs)).trans hw
  simp only [readerBits, gate_open hatt, Run.bind_done, hcount, readBits_of_pullBytes n _ h,
    zext64_foldl_shiftInBit hlength, hatt]

/-- Settles O34, at both widths by the loop over the pulled bytes. -/
theorem readerBitsResult : Obligations.ReaderBitsResult := by
  refine ⟨rfl, rfl, rfl, rfl, fun o s n bs d hatt hn h => ⟨fun hle => ?_, fun hle => ?_⟩⟩
  · exact exec_of_commandRun_done ((congrFun (commandRun_rdBits32 o) s).trans (readerBits_of_pullBytes hatt hn hle h))
  · exact exec_of_commandRun_done ((congrFun (commandRun_rdBits64 o) s).trans (readerBits_of_pullBytes hatt hn hle h))

/-! ### A writer's stream (spec/42_bitwriter.md R181, R185, R187) -/

theorem valueOfBits_testBit (l : List Bool) (j : Nat) : (valueOfBits l).testBit j = l.reverse.getD j false := by
  induction l using List.reverseRecOn generalizing j with
  | nil => simp [valueOfBits]
  | append_singleton l b ih =>
    rw [valueOfBits_concat, List.reverse_append, List.reverse_singleton, List.singleton_append]
    cases j with
    | zero => cases b <;> simp
    | succ j =>
      have hhalf : (2 * valueOfBits l + b.toNat) / 2 = valueOfBits l := by
        have hb := b.toNat_lt
        omega
      rw [Nat.testBit_succ, hhalf, ih, List.getD_cons_succ]

theorem bitPlace_bitPlace (o : BitOrder) {k : Nat} (h : k < 8) : bitPlace o (bitPlace o k) = k := by
  cases o with
  | msb =>
    simp only [bitPlace]
    omega
  | lsb => rfl

/-- R65: a byte is its bits in stream order. -/
theorem eq_of_streamBit_eq (o : BitOrder) {a b : Byte} (h : ∀ k, k < 8 → streamBit o a k = streamBit o b k) : a = b :=
  BitVec.eq_of_getLsbD_eq fun i hi => by
    have hbit := h (bitPlace o i) (bitPlace_lt o hi)
    rwa [streamBit, streamBit, bitPlace_bitPlace o hi] at hbit

theorem getD_padded (l : List Bool) {k : Nat} (h : k < 8) :
    ((l ++ List.replicate 8 false).take 8).getD k false = l.getD k false := by
  rw [List.getD_eq_getElem?_getD, List.getElem?_take_of_lt h, ← List.getD_eq_getElem?_getD]
  by_cases hl : k < l.length
  · exact List.getD_append _ _ _ _ hl
  · rw [List.getD_append_right _ _ _ _ (Nat.le_of_not_lt hl), List.getD_replicate _ (by omega),
      List.getD_eq_default _ _ (Nat.le_of_not_lt hl)]

/-- R65: the bits of the byte whose first bits are `l`. -/
theorem streamBit_byteOfBits (o : BitOrder) (l : List Bool) {k : Nat} (h : k < 8) :
    streamBit o (byteOfBits o l) k = l.getD k false := by
  have hlength : ((l ++ List.replicate 8 false).take 8).length = 8 := by simp
  rw [← getD_padded l h]
  cases o with
  | msb =>
    have hlt : 7 - k < 8 := by omega
    have hmirror : 8 - 1 - (7 - k) = k := by omega
    simp only [streamBit, byteOfBits, bitPlace, BitVec.getLsbD_ofNat, valueOfBits_testBit, hlt, decide_true,
      Bool.true_and]
    rw [List.getD_reverse _ (by omega), hlength, hmirror]
  | lsb =>
    simp only [streamBit, byteOfBits, bitPlace, BitVec.getLsbD_ofNat, valueOfBits_testBit, h, decide_true,
      Bool.true_and, List.reverse_reverse]

/-- R32: the pending bits, by their places. -/
theorem pendingBits_eq_map (o : BitOrder) (u : BitUnit) :
    pendingBits o u = (List.range u.cur.val).map (streamBit o u.buf) := by
  have hcur : min u.cur.val 8 = u.cur.val := Nat.min_eq_left (Nat.lt_succ_iff.mp u.cur.isLt)
  rw [pendingBits, bitsOfByte_eq_map, ← List.map_take, List.take_range, hcur]

@[simp] theorem pendingBits_length (o : BitOrder) (u : BitUnit) : (pendingBits o u).length = u.cur.val := by
  simp [pendingBits_eq_map]

/-- R32: a byte whose places after the cursor are zero is the byte of its pending bits. -/
theorem byteOfBits_pendingBits {o : BitOrder} {u : BitUnit}
    (h : ∀ k, k < 8 → u.cur.val ≤ k → streamBit o u.buf k = false) : byteOfBits o (pendingBits o u) = u.buf := by
  refine eq_of_streamBit_eq o fun k hk => ?_
  rw [streamBit_byteOfBits o _ hk, List.getD_eq_getElem?_getD, pendingBits_eq_map, List.getElem?_map]
  by_cases hlt : k < u.cur.val
  · simp [hlt]
  · simp [hlt, h k hk (by omega)]

theorem streamBit_putStreamBit_same (o : BitOrder) (b : Byte) (v : Bool) {k : Nat} (h : k < 8) :
    streamBit o (putStreamBit o b k v) k = v := by
  have hplace := bitPlace_lt o h
  cases v <;> simp [streamBit, putStreamBit, hplace]

/-- R181: a bit put at the cursor follows the pending ones. -/
theorem pendingBits_withBit (o : BitOrder) (v : Bool) {u : BitUnit} (h : u.cur ≠ 8) :
    pendingBits o (u.withBit o v) = pendingBits o u ++ [v] := by
  have hlt : u.cur.val < 8 := Fin.lt_last_iff_ne_last.mpr h
  have hcur : (u.withBit o v).cur.val = u.cur.val + 1 := Cursor.val_add_one h
  rw [pendingBits_eq_map, pendingBits_eq_map, hcur, List.range_succ, List.map_append, List.map_singleton]
  congr 1
  · refine List.map_congr_left fun k hk => ?_
    have hk' := List.mem_range.mp hk
    exact streamBit_putStreamBit_other o u.buf v hlt (by omega) (by omega)
  · exact congrArg (fun b => [b]) (streamBit_putStreamBit_same o u.buf v hlt)

/-- R181: the whole bytes of a sequence of bits. -/
def wholeBytes (o : BitOrder) (l : List Bool) : List Byte := packBytes o (l.length / 8) l

/-- R181: an open writer's record whose pending bits are those of a sequence after its whole bytes. -/
def packedRecord (o : BitOrder) (l : List Bool) : BitUnit :=
  { att := true, buf := byteOfBits o (l.drop (8 * (l.length / 8))), cur := Fin.ofNat 9 (l.length % 8) }

theorem length_append_div_eight {pre : List Bool} (h : pre.length = 8) (l : List Bool) :
    (pre ++ l).length / 8 = l.length / 8 + 1 := by
  rw [List.length_append, h]
  omega

theorem wholeBytes_append {o : BitOrder} {pre : List Bool} (h : pre.length = 8) (l : List Bool) :
    wholeBytes o (pre ++ l) = byteOfBits o pre :: wholeBytes o l := by
  rw [wholeBytes, length_append_div_eight h, packBytes, List.take_left' h, List.drop_left' h, wholeBytes]

theorem packedRecord_append {o : BitOrder} {pre : List Bool} (h : pre.length = 8) (l : List Bool) :
    packedRecord o (pre ++ l) = packedRecord o l := by
  have hrest : (pre ++ l).length % 8 = l.length % 8 := by
    rw [List.length_append, h]
    omega
  have hdrop : (pre ++ l).drop (8 * (l.length / 8 + 1)) = l.drop (8 * (l.length / 8)) := by
    rw [Nat.mul_succ, Nat.add_comm, ← List.drop_drop, List.drop_left' h]
  rw [packedRecord, length_append_div_eight h, hrest, hdrop, packedRecord]

theorem wholeBytes_pendingBits {o : BitOrder} {u : BitUnit} (h : u.cur.val < 8) :
    wholeBytes o (pendingBits o u) = [] := by
  rw [wholeBytes, pendingBits_length, Nat.div_eq_of_lt h]
  rfl

/-- R32: with no further bits the record is the one there was. -/
theorem packedRecord_pendingBits {o : BitOrder} {u : BitUnit} (hatt : u.att = true) (hok : WriterOk o u)
    (h : u.cur.val < 8) : packedRecord o (pendingBits o u) = u := by
  have hcur : Fin.ofNat 9 u.cur.val = u.cur := Fin.ofNat_val_eq_self u.cur
  rw [packedRecord, pendingBits_length, Nat.div_eq_of_lt h, Nat.mod_eq_of_lt h, Nat.mul_zero, List.drop_zero,
    byteOfBits_pendingBits hok.1, hcur, ← hatt]

/-- R185, R187: bits written one after another, the shape of both counted loops of a writer. -/
def writeBits (o : BitOrder) : List Bool → State → Run Unit
  | [], s => .done () s
  | b :: bs, s => (writeBit o b s).bind fun _ t => writeBits o bs t

theorem writeField_eq_writeBits (o : BitOrder) (field : Word64) (n : Nat) :
    writeField o field n = writeBits o (fieldBits field n) := by
  induction n with
  | zero => rfl
  | succ n ih =>
    funext s
    rw [writeField_succ, fieldBits, writeBits, ih]

theorem writeRepeat_eq_writeBits (o : BitOrder) (v : Bool) (n : Nat) :
    writeRepeat o v n = writeBits o (List.replicate n v) := by
  induction n with
  | zero => rfl
  | succ n ih =>
    funext s
    rw [writeRepeat_succ, List.replicate_succ, writeBits, ih]

/-- The first of the bytes a device takes, and the others. -/
theorem pushBytes_cons_eq_some {b : Byte} {bs : List Byte} {d e : Device} (h : pushBytes (b :: bs) d = some e) :
    ∃ d1, d.snkWrite b = some (.ok, d1) ∧ pushBytes bs d1 = some e := by
  rw [pushBytes] at h
  split at h
  case h_1 d1 hd => exact ⟨d1, hd, h⟩
  case h_2 => cases h

/-- R181: a bit that does not fill the byte. -/
theorem writeBit_of_room {o : BitOrder} {v : Bool} {s : State} (h : (s.writer o).cur.val + 1 < 8) :
    writeBit o v s = .done () (s.setWriter o ((s.writer o).withBit o v)) := by
  have hne : (s.writer o).cur ≠ 8 := Fin.ne_of_val_ne (Nat.ne_of_lt (Nat.lt_of_succ_lt h))
  have hroom : (s.writer o).cur + 1 ≠ 8 := Fin.ne_of_val_ne (by rw [Cursor.val_add_one hne]; exact Nat.ne_of_lt h)
  rw [writeBit_inside hne, placeBit_inside hroom]
  rfl

/-- R181, R182: the bit that fills the byte, which the sink takes. -/
theorem writeBit_of_full {o : BitOrder} {v : Bool} {s : State} {d : Device} (h : (s.writer o).cur.val = 7)
    (hd : (s.port (writePort o)).snkWrite ((s.writer o).withBit o v).buf = some (.ok, d)) :
    writeBit o v s =
      .done () ((s.setPort (writePort o) d).setWriter o { att := (s.writer o).att, buf := 0, cur := 0 }) := by
  have hcur : (s.writer o).cur = 7 := Fin.ext h
  have hne : (s.writer o).cur ≠ 8 := by
    rw [hcur]
    decide
  have hfull : (s.writer o).cur + 1 = 8 := by
    rw [hcur]
    decide
  rw [writeBit_inside hne, placeBit_full hfull,
    emit_ok (d := d) (by rw [port_setWriter, writer_setWriter_same]; exact hd), writer_setWriter_same,
    setPort_setWriter, setWriter_setWriter]

/-- R181: bits written to a sink that takes the whole bytes they make with the pending ones: those bytes pushed in
order, the rest pending over zeros. -/
theorem writeBits_of_pushBytes {o : BitOrder} (bits : List Bool) {s : State} {d : Device}
    (hatt : (s.writer o).att = true) (hok : WriterOk o (s.writer o)) (hcur : (s.writer o).cur.val < 8)
    (h : pushBytes (wholeBytes o (pendingBits o (s.writer o) ++ bits)) (s.port (writePort o)) = some d) :
    writeBits o bits s =
      .done () ((s.setPort (writePort o) d).setWriter o (packedRecord o (pendingBits o (s.writer o) ++ bits))) := by
  induction bits generalizing s with
  | nil =>
    rw [List.append_nil, wholeBytes_pendingBits hcur] at h
    cases h
    rw [List.append_nil, packedRecord_pendingBits hatt hok hcur, setPort_port, setWriter_writer, writeBits]
  | cons b bits ih =>
    have hne : (s.writer o).cur ≠ 8 := Fin.ne_of_val_ne (Nat.ne_of_lt hcur)
    have hput := pendingBits_withBit o b hne
    rw [List.append_cons, ← hput] at h ⊢
    by_cases hroom : (s.writer o).cur.val + 1 < 8
    · have hwriter := writer_setWriter_same s o ((s.writer o).withBit o b)
      have hlt : ((s.writer o).withBit o b).cur.val < 8 := (Cursor.val_add_one hne).trans_lt hroom
      rw [writeBits, writeBit_of_room hroom, Run.bind_done, ih (by rwa [hwriter])
        (by rw [hwriter]; exact (writerStable_writerOk o).withBit _ b hatt hne hok) (by rwa [hwriter])
        (by rwa [hwriter, port_setWriter]), hwriter, setPort_setWriter, setWriter_setWriter]
    · have hseven : (s.writer o).cur.val = 7 := by omega
      have hlength : (pendingBits o ((s.writer o).withBit o b)).length = 8 := by
        rw [pendingBits_length]
        exact (Cursor.val_add_one hne).trans (congrArg (· + 1) hseven)
      have hbyte : byteOfBits o (pendingBits o ((s.writer o).withBit o b)) = ((s.writer o).withBit o b).buf :=
        byteOfBits_pendingBits fun k hk hle => by rw [pendingBits_length] at hlength; omega
      rw [wholeBytes_append hlength, hbyte] at h
      obtain ⟨d1, hd, hrest⟩ := pushBytes_cons_eq_some h
      rw [writeBits, writeBit_of_full hseven hd, Run.bind_done, packedRecord_append hlength, hatt]
      have hwriter := writer_setWriter_same (s.setPort (writePort o) d1) o { att := true, buf := 0, cur := 0 }
      have hpending : pendingBits o { att := true, buf := 0, cur := 0 } = [] := pendingBits_eq_map o _
      rw [ih (by rw [hwriter]) (by rw [hwriter]; exact writerOk_boundary o true) (by rw [hwriter]; decide)
        (by rwa [hwriter, hpending, port_setWriter, port_setPort_same]), hwriter, hpending, setPort_setWriter,
        setWriter_setWriter, setPort_setPort, List.nil_append]

/-- R94: an open writer's counted command with a legal count runs the bits of that count. -/
theorem writerCounted_open {o : BitOrder} {limit n : Nat} {s t : State} {w : Nat → State → Run Unit}
    (hatt : (s.writer o).att = true) (hn : s.arg1.toInt = n) (hle : n ≤ limit) (hw : w n s = .done () t) :
    ((gate (s.writer o) s).bind fun _ s1 => (countOperand limit s1).bind fun n s2 =>
      (w n s2).bind fun _ s3 => .done (none : Option Word64) s3) = .done none t := by
  have hcount : countOperand limit s = .done n s := countOperand_eq_done.mpr ⟨hn, hle, rfl⟩
  rw [gate_open hatt, Run.bind_done, hcount, Run.bind_done, hw, Run.bind_done]

section Counted

variable {o : BitOrder} {n : Nat} {s t : State}

/-- R185: the bits `BITS32` writes are those of `ARG0[31:0]`, which are the low bits of `ARG0`. -/
theorem fieldBits_arg0Low32 (s : State) (h : n ≤ 32) : fieldBits (zext64 (arg0Low32 s)) n = fieldBits s.arg0 n := by
  induction n with
  | zero => rfl
  | succ n ih =>
    have hbit : (zext64 (arg0Low32 s)).getLsbD n = s.arg0.getLsbD n := by
      have hlt : n < 32 := h
      simp [zext64, arg0Low32, hlt, Nat.lt_trans hlt (by decide : 32 < 64)]
    rw [fieldBits, fieldBits, hbit, ih (Nat.le_of_succ_le h)]

theorem exec_wrBits32_of_writeBits (hatt : (s.writer o).att = true) (hn : s.arg1.toInt = n) (hle : n ≤ 31)
    (h : writeBits o (fieldBits s.arg0 n) s = .done () t) : exec (wrBits32 o) s = .next (succeed none t) := by
  refine exec_of_commandRun_done ((congrFun (commandRun_wrBits32 o) s).trans
    (writerCounted_open (w := fun n u => writeField o (zext64 (arg0Low32 u)) n u) hatt hn hle ?_))
  rw [writeField_eq_writeBits, fieldBits_arg0Low32 s (hle.trans (by decide)), h]

theorem exec_wrBits64_of_writeBits (hatt : (s.writer o).att = true) (hn : s.arg1.toInt = n) (hle : n ≤ 63)
    (h : writeBits o (fieldBits s.arg0 n) s = .done () t) : exec (wrBits64 o) s = .next (succeed none t) := by
  refine exec_of_commandRun_done ((congrFun (commandRun_wrBits64 o) s).trans
    (writerCounted_open (w := fun n u => writeField o u.arg0 n u) hatt hn hle ?_))
  rw [writeField_eq_writeBits, h]

/-- R94: a count in `ARG1` that is not negative is legal for `REP`. -/
theorem exec_wrRep_of_writeBits (hatt : (s.writer o).att = true) (hn : s.arg1.toInt = n)
    (h : writeBits o (List.replicate n (s.arg0.getLsbD 0)) s = .done () t) :
    exec (wrRep o) s = .next (succeed none t) := by
  have hle : n ≤ repLimit := by
    have hlt := BitVec.two_mul_toInt_lt (x := s.arg1)
    rw [hn] at hlt
    unfold repLimit
    omega
  refine exec_of_commandRun_done ((congrFun (commandRun_wrRep o) s).trans
    (writerCounted_open (w := fun n u => writeRepeat o (arg0Bit u) n u) hatt hn hle ?_))
  rw [writeRepeat_eq_writeBits]
  exact h

end Counted

/-- Settles O46: the three commands write lists of bits, the empty one for a count of 0. -/
theorem writerBitsResult : Obligations.WriterBitsResult := by
  refine ⟨rfl, rfl, rfl, rfl, rfl, rfl, fun o s n hatt hn => ⟨fun hzero => ?none, fun hok hcur d => ?some⟩⟩
  case none =>
    subst hzero
    exact ⟨exec_wrBits32_of_writeBits hatt hn (by decide) rfl, exec_wrBits64_of_writeBits hatt hn (by decide) rfl,
      exec_wrRep_of_writeBits hatt hn rfl⟩
  case some =>
    exact ⟨fun hle h => exec_wrBits32_of_writeBits hatt hn hle (writeBits_of_pushBytes _ hatt hok hcur h),
      fun hle h => exec_wrBits64_of_writeBits hatt hn hle (writeBits_of_pushBytes _ hatt hok hcur h),
      fun h => exec_wrRep_of_writeBits hatt hn (writeBits_of_pushBytes _ hatt hok hcur h)⟩

end Sys2Proof.Machine

/-! # The command byte (spec/30_encoding.md R90 to R92, R97, R98)

A byte is its two fields, and a cell of the table of R92 is a command or blank. So a byte decodes to the one command
whose unit and function it carries, and it is illegal where its cell is blank; the ranges of R98 are the blank cells,
written as bytes. -/

namespace Sys2Proof.Machine

/-! ### The two fields -/

theorem unitField_eq_div (c : Byte) : unitField c = c.toNat / 16 := by
  have hc := c.isLt
  simp only [unitField, BitVec.extractLsb'_toNat, Nat.shiftRight_eq_div_pow]
  omega

theorem fnField_eq_mod (c : Byte) : fnField c = c.toNat % 16 := by
  simp [fnField, BitVec.extractLsb'_toNat]

/-- R90: the fields leave nothing of the byte out. -/
theorem eq_of_fields_eq {c d : Byte} (hunit : unitField c = unitField d) (hfn : fnField c = fnField d) : c = d := by
  apply BitVec.eq_of_toNat_eq
  rw [unitField_eq_div, unitField_eq_div] at hunit
  rw [fnField_eq_mod, fnField_eq_mod] at hfn
  omega

/-! ### The table of units and functions -/

/-- R92: a cell below the number of the unit's functions holds the command of that unit and that function. -/
theorem exists_decodeFields_of_lt {u : UnitName} {f : Nat} (h : f < u.functions) :
    ∃ i, decodeFields u.code f = some i ∧ u = i.unit ∧ f = i.fn := by
  cases u <;> simp only [UnitName.functions] at h <;> interval_cases f <;> exact ⟨_, rfl, rfl, rfl⟩

/-- R92: the cells from the number of the unit's functions on are blank. -/
theorem decodeFields_eq_none_of_functions_le {u : UnitName} {f : Nat} (h : u.functions ≤ f) :
    decodeFields u.code f = none := by
  obtain ⟨k, rfl⟩ := Nat.exists_eq_add_of_le' h
  cases u <;> rfl

/-- R91: the units from 9 on have no column. -/
theorem decodeFields_eq_none_of_nine_le {n : Nat} (h : 9 ≤ n) (f : Nat) : decodeFields n f = none := by
  obtain ⟨k, rfl⟩ := Nat.exists_eq_add_of_le' h
  rfl

theorem exists_code_eq {n : Nat} (h : n < 9) : ∃ u : UnitName, u.code = n := by
  interval_cases n
  exacts [⟨.varintEncoder, rfl⟩, ⟨.varintDecoder, rfl⟩, ⟨.bitstreamReaderMsb, rfl⟩, ⟨.bitstreamWriterMsb, rfl⟩,
    ⟨.bitstreamReaderLsb, rfl⟩, ⟨.bitstreamWriterLsb, rfl⟩, ⟨.endianSwap16, rfl⟩, ⟨.endianSwap32, rfl⟩,
    ⟨.endianSwap64, rfl⟩]

/-- R91, R92: each pair of fields is the cell of a command, or a blank cell of a unit's column, or in no column. -/
theorem decodeFields_cases (n f : Nat) :
    (∃ i, decodeFields n f = some i ∧ n = i.unit.code ∧ f = i.fn) ∨
      decodeFields n f = none ∧ (9 ≤ n ∨ ∃ u : UnitName, u.code = n ∧ u.functions ≤ f) := by
  rcases Nat.lt_or_ge n 9 with hn | hn
  · obtain ⟨u, rfl⟩ := exists_code_eq hn
    rcases Nat.lt_or_ge f u.functions with hf | hf
    · obtain ⟨i, hi, rfl, rfl⟩ := exists_decodeFields_of_lt hf
      exact .inl ⟨i, hi, rfl, rfl⟩
    · exact .inr ⟨decodeFields_eq_none_of_functions_le hf, .inr ⟨u, rfl, hf⟩⟩
  · exact .inr ⟨decodeFields_eq_none_of_nine_le hn f, .inl hn⟩

theorem fields_of_decodeFields_eq_some {n f : Nat} {i : Instr} (h : decodeFields n f = some i) :
    n = i.unit.code ∧ f = i.fn := by
  obtain ⟨j, hj, hfields⟩ | ⟨hnone, -⟩ := decodeFields_cases n f
  · obtain rfl : i = j := Option.some.inj (h.symm.trans hj)
    exact hfields
  · cases h.symm.trans hnone

theorem decodeFields_eq_none_iff {n f : Nat} :
    decodeFields n f = none ↔ 9 ≤ n ∨ ∃ u : UnitName, u.code = n ∧ u.functions ≤ f := by
  refine ⟨fun h => ?_, ?_⟩
  · obtain ⟨i, hi, -⟩ | ⟨-, hblank⟩ := decodeFields_cases n f
    · cases h.symm.trans hi
    · exact hblank
  · rintro (hn | ⟨u, rfl, hf⟩)
    · exact decodeFields_eq_none_of_nine_le hn f
    · exact decodeFields_eq_none_of_functions_le hf

/-! ### Decoding a byte -/

theorem decode_eq_ok_iff {c : Byte} {i : Instr} :
    decode c = .ok i ↔ decodeFields (unitField c) (fnField c) = some i := by
  unfold decode
  split <;> simp [*]

theorem decode_eq_illegal_iff {c : Byte} :
    decode c = .error (.illegalCommand c) ↔ decodeFields (unitField c) (fnField c) = none := by
  unfold decode
  split <;> simp [*]

/-- A byte that decodes to a command carries its unit and its function. -/
theorem fields_of_decode {c : Byte} {i : Instr} (h : decode c = .ok i) :
    unitField c = i.unit.code ∧ fnField c = i.fn :=
  fields_of_decodeFields_eq_some (decode_eq_ok_iff.mp h)

/-- Settles O2: a byte that decodes to `i` has the same fields as the opcode of `i`, so it is that opcode. -/
theorem decodeEncodeAgree : Obligations.DecodeEncodeAgree := by
  intro i c
  constructor
  · intro h
    obtain ⟨hunit, hfn⟩ := fields_of_decode h
    obtain ⟨hunit', hfn'⟩ := fields_of_decode (decode_encode i)
    exact eq_of_fields_eq (hunit'.trans hunit.symm) (hfn'.trans hfn.symm)
  · rintro rfl
    exact decode_encode i

/-- Settles O1: each word is the opcode R97 gives its command. -/
theorem opcodeWordsDecode : Obligations.OpcodeWordsDecode :=
  ⟨decode_encode .venc, decode_encode .vcnt, decode_encode .vdec, decode_encode .rmSetpos, decode_encode .rlEos,
    decode_encode .wmRep, decode_encode .wlClose, decode_encode .frombe16, decode_encode .swap32, decode_encode .tobe64⟩

/-! ### The illegal bytes -/

/-- The ranges of R98. -/
def illegalByteRanges (n : Nat) : Bool :=
  (3 ≤ n && n ≤ 0x0F) || (0x11 ≤ n && n ≤ 0x1F) || (0x29 ≤ n && n ≤ 0x2F) || (0x39 ≤ n && n ≤ 0x3F) ||
  (0x49 ≤ n && n ≤ 0x4F) || (0x59 ≤ n && n ≤ 0x5F) || (0x63 ≤ n && n ≤ 0x6F) || (0x73 ≤ n && n ≤ 0x7F) ||
  (0x83 ≤ n && n ≤ 0xFF)

/-- R98: 207 of the 256 bytes, counted a quarter at a time. -/
theorem illegalByteRanges_count : (List.range 256).countP illegalByteRanges = 207 := by
  have hquarters : List.range 256 = List.range (64 + 64 + 64 + 64) := rfl
  simp only [hquarters, List.range_add, List.countP_append, List.countP_map]
  decide

/-- R98: the ranges are the blank cells of R92 and the units without a column. -/
theorem decode_eq_illegal_iff_ranges (c : Byte) :
    decode c = .error (.illegalCommand c) ↔ illegalByteRanges c.toNat = true := by
  have hc := c.isLt
  rw [decode_eq_illegal_iff, decodeFields_eq_none_iff, unitField_eq_div, fnField_eq_mod]
  simp only [illegalByteRanges, Bool.or_eq_true, Bool.and_eq_true, decide_eq_true_eq]
  constructor
  · rintro (hn | ⟨u, hcode, hfn⟩)
    · omega
    · cases u <;> simp only [UnitName.code, UnitName.functions] at hcode hfn <;> omega
  · intro h
    by_cases hn : 9 ≤ c.toNat / 16
    · exact .inl hn
    · obtain ⟨u, hcode⟩ := exists_code_eq (Nat.lt_of_not_le hn)
      refine .inr ⟨u, hcode, ?_⟩
      cases u <;> simp only [UnitName.code, UnitName.functions] at hcode ⊢ <;> omega

/-- R103 step 2: a byte that is no opcode only raises. -/
theorem issue_of_illegal {c : Byte} (h : decode c = .error (.illegalCommand c)) (s : State) :
    issue c s = .next (raiseError .illegalCommand s) := by
  simp only [issue, h]

/-- Settles O3: the ranges by the table's blank cells, the step by what raising `IllegalCommand` changes. -/
theorem illegalBytesComplete : Obligations.IllegalBytesComplete := by
  intro c
  refine ⟨decode_eq_illegal_iff_ranges c, illegalByteRanges_count, fun s rest hillegal hs => ?_⟩
  have hdecode := (decode_eq_illegal_iff_ranges c).mpr hillegal
  have hfits : (zext64 c).toNat < 2 ^ regWidth .cmd := toNat_zext64 c ▸ c.isLt
  refine ⟨Config.resAfterError s.draws, ?_⟩
  calc step s = issue ((zext64 c).setWidth 8) (takeEvent rest s) := step_write hs rfl hfits
    _ = issue c (takeEvent rest s) := by rw [setWidth_zext64]
    _ = .next (raiseError .illegalCommand (takeEvent rest s)) := issue_of_illegal hdecode _

end Sys2Proof.Machine

/-! # The varint units (spec/40_varint.md)

A value below 128 is its own group and ends the encoding; any other value gives its low group with the continuation bit
and then the encoding of the rest. That is one induction over the encoding, and three facts by it fix the bytes: their
groups add up to the value, every byte but the last asks for another one, and the value does not fit in fewer groups.
`VDEC` is followed by the bytes it has pulled: they fix both its count and its accumulator. -/

namespace Sys2Proof.Machine

/-! ### Groups and bytes (R64, R120) -/

theorem lowGroup_toNat (v : Word64) : (lowGroup v).toNat = v.toNat % 128 := by
  have hmask : (0x7F#8).toNat = 2 ^ 7 - 1 := rfl
  rw [lowGroup, BitVec.toNat_and, BitVec.toNat_setWidth, hmask, Nat.and_two_pow_sub_one_eq_mod]
  omega

/-- R120: the continuation bit is the upper half of the byte's values. -/
theorem continues_eq_decide (b : Byte) : continues b = decide (128 ≤ b.toNat) := by
  have hb := b.isLt
  rw [continues, BitVec.getLsbD, Nat.testBit_eq_decide_div_mod_eq, decide_eq_decide]
  omega

@[simp] theorem continues_lowGroup (v : Word64) : continues (lowGroup v) = false := by
  rw [continues_eq_decide, lowGroup_toNat, decide_eq_false_iff_not]
  omega

@[simp] theorem continues_withContinuation (g : Byte) : continues (withContinuation g) = true := by
  simp [continues, withContinuation]

/-- R120: the continuation bit is no part of a byte's group. -/
theorem withContinuation_toNat_mod (g : Byte) : (withContinuation g).toNat % 128 = g.toNat % 128 := by
  rw [withContinuation, BitVec.toNat_or]
  exact (Nat.or_mod_two_pow (n := 7)).trans (Nat.or_zero _)

theorem shiftRight_groupBits_toNat (v : Word64) : (v >>> Config.groupBits).toNat = v.toNat / 128 := by
  rw [BitVec.toNat_ushiftRight, Nat.shiftRight_eq_div_pow]
  rfl

/-- R121: the encoding ends with a value of one group. -/
theorem shiftRight_groupBits_eq_zero_iff (v : Word64) : v >>> Config.groupBits = 0 ↔ v.toNat < 128 := by
  have hzero : (0 : Word64).toNat = 0 := rfl
  rw [← BitVec.toNat_inj, shiftRight_groupBits_toNat, hzero]
  omega

/-! ### The value of a sequence (R120) -/

theorem varintValue_append (bs cs : List Byte) :
    varintValue (bs ++ cs) = varintValue bs + 2 ^ (7 * bs.length) * varintValue cs := by
  induction bs with
  | nil => simp [varintValue]
  | cons b bs ih =>
    rw [List.cons_append, varintValue, varintValue, ih, List.length_cons, Nat.mul_succ, Nat.pow_add]
    ring

theorem varintValue_singleton (b : Byte) : varintValue [b] = b.toNat % 128 := rfl

/-- A sequence holds no more than its groups. -/
theorem varintValue_lt (bs : List Byte) : varintValue bs < 2 ^ (7 * bs.length) := by
  induction bs with
  | nil => exact Nat.one_pos
  | cons b bs ih =>
    rw [varintValue, List.length_cons, Nat.mul_succ, Nat.pow_add]
    omega

/-! ### The encoding (R121, R122) -/

theorem varintLoop_succ_of_lt {v : Word64} (h : v.toNat < 128) (fuel : Nat) :
    varintLoop (fuel + 1) v = [lowGroup v] :=
  if_pos ((shiftRight_groupBits_eq_zero_iff v).mpr h)

theorem varintLoop_succ_of_le {v : Word64} (h : 128 ≤ v.toNat) (fuel : Nat) :
    varintLoop (fuel + 1) v = withContinuation (lowGroup v) :: varintLoop fuel (v >>> Config.groupBits) :=
  if_neg fun hzero => absurd ((shiftRight_groupBits_eq_zero_iff v).mp hzero) (Nat.not_lt.mpr h)

/-- The induction over an encoding, with as much fuel as the value has groups. -/
theorem varintLoop_induction {P : Word64 → List Byte → Prop}
    (last : ∀ v : Word64, v.toNat < 128 → P v [lowGroup v])
    (more : ∀ (v : Word64) bs, 128 ≤ v.toNat → P (v >>> Config.groupBits) bs →
      P v (withContinuation (lowGroup v) :: bs))
    (fuel : Nat) (v : Word64) (h : v.toNat < 2 ^ (7 * (fuel + 1))) : P v (varintLoop (fuel + 1) v) := by
  induction fuel generalizing v with
  | zero =>
    rw [varintLoop_succ_of_lt h]
    exact last v h
  | succ fuel ih =>
    by_cases hlt : v.toNat < 128
    · rw [varintLoop_succ_of_lt hlt]
      exact last v hlt
    · have hle := Nat.le_of_not_lt hlt
      rw [varintLoop_succ_of_le hle]
      refine more v _ hle (ih _ ?_)
      rw [Nat.mul_succ, Nat.pow_add] at h
      rw [shiftRight_groupBits_toNat]
      exact Nat.div_lt_of_lt_mul (by rwa [Nat.mul_comm])

/-- R122: ten groups hold every 64-bit value, so the induction reaches the bytes of each. -/
theorem varintBytes_induction {P : Word64 → List Byte → Prop}
    (last : ∀ v : Word64, v.toNat < 128 → P v [lowGroup v])
    (more : ∀ (v : Word64) bs, 128 ≤ v.toNat → P (v >>> Config.groupBits) bs →
      P v (withContinuation (lowGroup v) :: bs))
    (v : Word64) : P v (varintBytes v) :=
  varintLoop_induction last more 9 v (v.isLt.trans (by decide))

theorem varintBytes_length_le (v : Word64) : (varintBytes v).length ≤ 10 := varintLoop_length_le 10 v

theorem varintValue_varintBytes (v : Word64) : varintValue (varintBytes v) = v.toNat := by
  refine varintBytes_induction (P := fun v bs => varintValue bs = v.toNat) (fun v hlt => ?last)
    (fun v bs hle ih => ?more) v
  case last =>
    rw [varintValue_singleton, lowGroup_toNat]
    omega
  case more =>
    rw [varintValue, ih, withContinuation_toNat_mod, lowGroup_toNat, shiftRight_groupBits_toNat]
    omega

/-- R120: a complete sequence, every byte but the last asking for another one. -/
def Terminated (bs : List Byte) : Prop :=
  ∃ front last, bs = front ++ [last] ∧ (∀ b ∈ front, continues b = true) ∧ continues last = false

theorem Terminated.cons {b : Byte} {bs : List Byte} (hb : continues b = true) (h : Terminated bs) :
    Terminated (b :: bs) := by
  obtain ⟨front, last, rfl, hfront, hlast⟩ := h
  exact ⟨b :: front, last, rfl, List.forall_mem_cons.mpr ⟨hb, hfront⟩, hlast⟩

theorem Terminated.length_pos {bs : List Byte} (h : Terminated bs) : 1 ≤ bs.length := by
  obtain ⟨front, last, rfl, -, -⟩ := h
  rw [List.length_append]
  exact Nat.le_add_left 1 _

/-- R120: the continuation bits say where the sequence ends. -/
theorem Terminated.continues_iff {bs : List Byte} (h : Terminated bs) {k : Nat} {b : Byte} (hb : bs[k]? = some b) :
    continues b = true ↔ k + 1 < bs.length := by
  obtain ⟨front, last, rfl, hfront, hlast⟩ := h
  rw [List.length_append, List.length_singleton, Nat.add_lt_add_iff_right]
  by_cases hk : k < front.length
  · rw [List.getElem?_append_left hk] at hb
    exact iff_of_true (hfront b (List.mem_of_getElem? hb)) hk
  · rw [List.getElem?_append_right (Nat.le_of_not_lt hk), List.getElem?_singleton] at hb
    split at hb
    · cases hb
      exact iff_of_false (Bool.eq_false_iff.mp hlast) hk
    · cases hb

theorem varintBytes_terminated (v : Word64) : Terminated (varintBytes v) :=
  varintBytes_induction (P := fun _ bs => Terminated bs)
    (fun v _ => ⟨[], lowGroup v, rfl, List.forall_mem_nil _, continues_lowGroup v⟩)
    (fun _ _ _ ih => ih.cons (continues_withContinuation _)) v

/-- R122: the value does not fit in the groups of one byte less. -/
theorem two_pow_le_toNat_of_lt_varintBytes_length (v : Word64) (m : Nat) (hpos : 1 ≤ m) (hm : m < (varintBytes v).length) :
    2 ^ (7 * m) ≤ v.toNat := by
  revert m
  refine varintBytes_induction (P := fun v bs => ∀ m, 1 ≤ m → m < bs.length → 2 ^ (7 * m) ≤ v.toNat)
    (fun v _ m hpos hm => ?last) (fun v bs hle ih m hpos hm => ?more) v
  case last => exact absurd hpos (Nat.not_le.mpr hm)
  case more =>
    obtain _ | _ | m := m
    · cases hpos
    · exact hle
    · have hrest := ih (m + 1) (Nat.le_add_left 1 m) (Nat.lt_of_succ_lt_succ hm)
      rw [shiftRight_groupBits_toNat] at hrest
      rw [Nat.mul_succ, Nat.pow_add]
      omega

/-- R122: the value fits in its groups. -/
theorem toNat_lt_two_pow_varintBytes_length (v : Word64) : v.toNat < 2 ^ (7 * (varintBytes v).length) := by
  have hlt := varintValue_lt (varintBytes v)
  rwa [varintValue_varintBytes] at hlt

/-- R122: a last byte of zero would leave the value to the groups before it, which do not hold it. -/
theorem varintBytes_getLast?_ne_zero (v : Word64) (h : 1 < (varintBytes v).length) :
    (varintBytes v).getLast? ≠ some 0 := by
  intro hzero
  obtain ⟨front, hfront⟩ := List.getLast?_eq_some_iff.mp hzero
  rw [hfront, List.length_append, List.length_singleton] at h
  have hmin := two_pow_le_toNat_of_lt_varintBytes_length v front.length (Nat.le_of_lt_succ h)
    (by rw [hfront, List.length_append]; exact Nat.lt_succ_self _)
  have hvalue : v.toNat = varintValue front := by
    rw [← varintValue_varintBytes v, hfront, varintValue_append]
    rfl
  exact absurd (varintValue_lt front) (Nat.not_lt.mpr (hvalue ▸ hmin))

/-- Settles O26, from the value, the ends and the least length of the encoding. -/
theorem varintBytesShape : Obligations.VarintBytesShape := fun v =>
  ⟨(varintBytes_terminated v).length_pos, varintBytes_length_le v, varintValue_varintBytes v,
    fun _ _ hb => (varintBytes_terminated v).continues_iff hb, varintBytes_getLast?_ne_zero v,
    toNat_lt_two_pow_varintBytes_length v, two_pow_le_toNat_of_lt_varintBytes_length v⟩

/-! ### VCNT and VENCB (R125, R126) -/

/-- R126: `VCNT` makes no transaction. -/
theorem exec_vcnt (s : State) :
    exec .vcnt s = .next (succeed (some (BitVec.ofNat 64 (varintLen s.arg0))) s) := exec_of_commandRun_done rfl

/-- R125: `VENCB` is a store of the encoding from `BUF[0]`. -/
theorem exec_vencb (s : State) :
    exec .vencb s = .next (succeed (some (BitVec.ofNat 64 (varintBytes s.arg0).length))
      (s.storeBytes (varintBytes s.arg0))) := exec_of_commandRun_done rfl

/-- Settles O29: the count is the length of the encoding, and a negative value has its top bit in the tenth group. -/
theorem vcntReportsLength : Obligations.VcntReportsLength := by
  refine ⟨rfl, fun s => ⟨varintLen s.arg0, exec_vcnt s, (varintBytes_terminated s.arg0).length_pos,
    varintBytes_length_le s.arg0, toNat_lt_two_pow_varintBytes_length s.arg0,
    two_pow_le_toNat_of_lt_varintBytes_length s.arg0, fun hneg => ?_⟩⟩
  refine Nat.le_antisymm (varintBytes_length_le s.arg0) (Nat.le_of_not_lt fun hshort => ?_)
  have hfits : 2 ^ (7 * varintLen s.arg0) ≤ 2 ^ 63 := Nat.pow_le_pow_right (by decide) (by omega)
  have hlt : s.arg0.toNat < 2 ^ 63 := (toNat_lt_two_pow_varintBytes_length s.arg0).trans_le hfits
  rw [BitVec.toInt_neg_iff] at hneg
  omega

/-- Settles O28, by what a store writes and leaves. -/
theorem vencbFillsBuffer : Obligations.VencbFillsBuffer := by
  refine ⟨rfl, fun s hwf => ⟨s.buf.store 0 (varintBytes s.arg0), exec_vencb s, fun k b hb => ?_, fun a ha =>
    Memory.read_store_outside _ _ _ _ (.inr (by rwa [Nat.zero_add]))⟩⟩
  obtain ⟨hk, rfl⟩ := List.getElem?_eq_some_iff.mp hb
  have hread := Memory.read_store (varintBytes s.arg0) s.buf 0 k hwf hk
  rwa [Nat.zero_add] at hread

/-! ### VENC (R124) -/

theorem snkWrite_of_ok {p : Port} {b : Byte} {s : State} {d : Device} (h : (s.port p).snkWrite b = some (.ok, d)) :
    snkWrite p b s = .done () (s.setPort p d) := snkWrite_eq_done.mpr ⟨d, h, rfl⟩

theorem writeBytes_of_pushBytes {p : Port} {bs : List Byte} {s : State} {d : Device}
    (h : pushBytes bs (s.port p) = some d) : writeBytes p bs s = .done () (s.setPort p d) := by
  induction bs generalizing s with
  | nil =>
    cases h
    rw [setPort_port, writeBytes]
  | cons b bs ih =>
    obtain ⟨d1, hd, hrest⟩ := pushBytes_cons_eq_some h
    rw [writeBytes, snkWrite_of_ok hd, Run.bind_done, ih (by rwa [port_setPort_same]), setPort_setPort]

theorem writeBytes_append (p : Port) (bs cs : List Byte) (s : State) :
    writeBytes p (bs ++ cs) s = (writeBytes p bs s).bind fun _ t => writeBytes p cs t := by
  induction bs generalizing s with
  | nil => rfl
  | cons b bs ih => simp only [List.cons_append, writeBytes, Run.bind_assoc, ih]

/-- A byte the sink refuses ends the writing; the bytes before it stay written. -/
theorem writeBytes_of_refused {p : Port} {bs : List Byte} {k : Nat} {b : Byte} {s : State} {d1 d2 : Device}
    {a : SnkAnswer} {e : ErrorKind} (hb : bs[k]? = some b) (hpush : pushBytes (bs.take k) (s.port p) = some d1)
    (hd : d1.snkWrite b = some (a, d2)) (he : a.error? = some e) :
    writeBytes p bs s = .raised e (s.setPort p d2) := by
  obtain ⟨hk, rfl⟩ := List.getElem?_eq_some_iff.mp hb
  have hsplit : bs = bs.take k ++ bs[k] :: bs.drop (k + 1) := by
    rw [List.getElem_cons_drop, List.take_append_drop]
  have hrefused : snkWrite p bs[k] (s.setPort p d1) = .raised e (s.setPort p d2) :=
    snkWrite_eq_raised.mpr ⟨a, d2, by rwa [port_setPort_same], he, (setPort_setPort s p d1 d2).symm⟩
  calc writeBytes p bs s = writeBytes p (bs.take k ++ bs[k] :: bs.drop (k + 1)) s := congrArg (writeBytes p · s) hsplit
    _ = writeBytes p (bs[k] :: bs.drop (k + 1)) (s.setPort p d1) := by
      rw [writeBytes_append, writeBytes_of_pushBytes hpush, Run.bind_done]
    _ = .raised e (s.setPort p d2) := by rw [writeBytes, hrefused, Run.bind_raised]

theorem commandRun_venc (s : State) :
    commandRun .venc s = (writeBytes .p0 (varintBytes s.arg0) s).bind fun _ t =>
      .done (some (BitVec.ofNat 64 (varintBytes s.arg0).length)) t := rfl

/-- R124: a sink that takes the encoding. -/
theorem exec_venc_of_pushBytes {s : State} {d : Device} (h : pushBytes (varintBytes s.arg0) (s.port .p0) = some d) :
    exec .venc s =
      .next (succeed (some (BitVec.ofNat 64 (varintBytes s.arg0).length)) (s.setPort .p0 d)) :=
  exec_of_commandRun_done (by rw [commandRun_venc, writeBytes_of_pushBytes h, Run.bind_done])

/-- Settles O27, by what the sink answers to the bytes. -/
theorem vencWritesVarint : Obligations.VencWritesVarint :=
  ⟨rfl, fun s => ⟨fun _ h => exec_venc_of_pushBytes h, fun _ _ _ _ _ _ hb hpush hd he =>
    exec_of_commandRun_raised (by rw [commandRun_venc, writeBytes_of_refused hb hpush hd he, Run.bind_raised])⟩⟩

/-! ### VDEC (R127) -/

/-- R127: a group put in place behind the groups of the bytes before it. -/
theorem accumulate_varintValue (pulled : List Byte) (b : Byte) :
    BitVec.ofNat 64 (varintValue pulled) |||
      ((lowGroup (b.setWidth 64)).setWidth 64 <<< (Config.groupBits * pulled.length)) =
    BitVec.ofNat 64 (varintValue (pulled ++ [b])) := by
  have hgroup : (lowGroup (b.setWidth 64)).setWidth 64 = BitVec.ofNat 64 (b.toNat % 128) := by
    have hb := b.isLt
    rw [← BitVec.ofNat_toNat, lowGroup_toNat, BitVec.toNat_setWidth, Nat.mod_eq_of_lt (by omega : b.toNat < 2 ^ 64)]
  have hvalue : varintValue (pulled ++ [b]) = varintValue pulled ||| (b.toNat % 128) <<< (7 * pulled.length) := by
    rw [varintValue_append, varintValue_singleton, Nat.add_comm, Nat.two_pow_add_eq_or_of_lt (varintValue_lt pulled),
      Nat.or_comm, Nat.shiftLeft_eq, Nat.mul_comm]
  have hshift : BitVec.ofNat 64 (b.toNat % 128) <<< (Config.groupBits * pulled.length) =
      BitVec.ofNat 64 ((b.toNat % 128) <<< (7 * pulled.length)) := by
    refine BitVec.eq_of_toNat_eq ?_
    simp only [BitVec.toNat_shiftLeft, BitVec.toNat_ofNat, Nat.shiftLeft_eq, Nat.mod_mul_mod, Config.groupBits]
  rw [hvalue, hgroup, hshift, BitVec.ofNat_or]

/-- R127: the loop of `VDEC` with `fuel` bytes left after pulling these bytes. -/
def decodeAfter (fuel : Nat) (pulled : List Byte) (s : State) : Run Word64 :=
  decodeLoop fuel pulled.length (BitVec.ofNat 64 (varintValue pulled)) s

theorem decodeAfter_zero (pulled : List Byte) (s : State) : decodeAfter 0 pulled s = .raised .overflowError s := rfl

section Pull

variable {fuel : Nat} {pulled : List Byte} {s : State} {b : Byte} {d : Device}

theorem decodeAfter_continues (hd : (s.port .p1).srcRead = some (.byte b, d)) (hb : continues b = true) :
    decodeAfter (fuel + 1) pulled s = decodeAfter fuel (pulled ++ [b]) (s.setPort .p1 d) := by
  rw [decodeAfter, decodeLoop, srcRead_eq_done.mpr ⟨d, hd, rfl⟩, Run.bind_done]
  simp only [hb, if_true, accumulate_varintValue, decodeAfter, List.length_append, List.length_singleton]

theorem decodeAfter_terminates (hd : (s.port .p1).srcRead = some (.byte b, d)) (hb : continues b = false) :
    decodeAfter (fuel + 1) pulled s = .done (BitVec.ofNat 64 (varintValue (pulled ++ [b]))) (s.setPort .p1 d) := by
  rw [decodeAfter, decodeLoop, srcRead_eq_done.mpr ⟨d, hd, rfl⟩, Run.bind_done]
  simp only [hb, Bool.false_eq_true, if_false, accumulate_varintValue]

theorem decodeAfter_error {a : SrcAnswer} {e : ErrorKind} (hd : (s.port .p1).srcRead = some (a, d))
    (he : a.error? = some e) : decodeAfter (fuel + 1) pulled s = .raised e (s.setPort .p1 d) := by
  rw [decodeAfter, decodeLoop, srcRead_eq_done.mpr ⟨d, hd, rfl⟩, Run.bind_done]
  cases a <;> cases he <;> rfl

theorem decodeAfter_silent (hd : (s.port .p1).srcRead = none) :
    decodeAfter (fuel + 1) pulled s = .stuck (.portSilent .p1) := by
  rw [decodeAfter, decodeLoop, srcRead_eq_stuck.mpr ⟨hd, rfl⟩, Run.bind_stuck]

end Pull

/-- R127: continuation bytes only move the loop on. -/
theorem decodeAfter_of_pullBytes (fuel : Nat) {bs pulled : List Byte} {s : State} {d : Device}
    (h : pullBytes bs.length (s.port .p1) = some (bs, d)) (hbs : ∀ b ∈ bs, continues b = true) :
    decodeAfter (fuel + bs.length) pulled s = decodeAfter fuel (pulled ++ bs) (s.setPort .p1 d) := by
  induction bs generalizing pulled s with
  | nil =>
    obtain ⟨-, rfl⟩ := pullBytes_zero_eq_some h
    rw [setPort_port, List.append_nil]
    rfl
  | cons b bs ih =>
    obtain ⟨hb, hrest⟩ := List.forall_mem_cons.mp hbs
    obtain ⟨_, d1, _, hd, htail, hcons⟩ := pullBytes_succ_eq_some h
    cases hcons
    rw [List.length_cons, ← Nat.add_assoc, decodeAfter_continues hd hb, ih (by rwa [port_setPort_same]) hrest,
      setPort_setPort, List.append_assoc, List.singleton_append]

section Decode

variable {bs : List Byte} {s : State} {d : Device}

/-- R127: `VDEC` after continuation bytes, with the rest of its ten pulls. -/
theorem commandRun_vdec_of_pullBytes {fuel : Nat} (h : pullBytes bs.length (s.port .p1) = some (bs, d))
    (hbs : ∀ b ∈ bs, continues b = true) (hfuel : fuel + bs.length = 10) :
    commandRun .vdec s = (decodeAfter fuel bs (s.setPort .p1 d)).bind fun v t => .done (some v) t := by
  have hrun := decodeAfter_of_pullBytes fuel (pulled := []) h hbs
  rw [hfuel, List.nil_append] at hrun
  rw [← hrun]
  rfl

/-- R127: with fewer than ten bytes pulled there is a next pull. -/
theorem commandRun_vdec_of_lt_ten (h : pullBytes bs.length (s.port .p1) = some (bs, d))
    (hbs : ∀ b ∈ bs, continues b = true) (hlt : bs.length < 10) :
    commandRun .vdec s =
      (decodeAfter (9 - bs.length + 1) bs (s.setPort .p1 d)).bind fun v t => .done (some v) t :=
  commandRun_vdec_of_pullBytes h hbs (by omega)

/-- R127: a sequence that ends within ten bytes. -/
theorem exec_vdec_of_pullBytes {b : Byte} {d2 : Device} (h : pullBytes bs.length (s.port .p1) = some (bs, d))
    (hbs : ∀ b ∈ bs, continues b = true) (hlt : bs.length < 10) (hd : d.srcRead = some (.byte b, d2))
    (hb : continues b = false) :
    exec .vdec s = .next (succeed (some (BitVec.ofNat 64 (varintValue (bs ++ [b])))) (s.setPort .p1 d2)) := by
  refine exec_of_commandRun_done ?_
  rw [commandRun_vdec_of_lt_ten h hbs hlt, decodeAfter_terminates (by rwa [port_setPort_same]) hb, Run.bind_done,
    setPort_setPort]

end Decode

/-- Settles O30, by what the source answers after the continuation bytes. -/
theorem vdecDecodes : Obligations.VdecDecodes := by
  refine ⟨rfl, fun s bs d h hbs => ⟨fun hlt => ⟨fun b d2 hd hb => exec_vdec_of_pullBytes h hbs hlt hd hb,
    fun a e d2 hd he => ?error, fun hd => ?silent⟩, fun hten => ?overflow⟩⟩
  case error =>
    refine exec_of_commandRun_raised ?_
    rw [commandRun_vdec_of_lt_ten h hbs hlt, decodeAfter_error (by rwa [port_setPort_same]) he, Run.bind_raised,
      setPort_setPort]
  case silent =>
    refine exec_of_commandRun_stuck ?_
    rw [commandRun_vdec_of_lt_ten h hbs hlt, decodeAfter_silent (by rwa [port_setPort_same]), Run.bind_stuck]
  case overflow =>
    refine exec_of_commandRun_raised ?_
    rw [commandRun_vdec_of_pullBytes (fuel := 0) h hbs (by omega), decodeAfter_zero, Run.bind_raised]

/-! ### The round trip (R128) -/

/-- R61: an open reference device without a capacity limit, at some position. -/
def streamAt (data : List Byte) (pos : Nat) (sk : Bool) : Device :=
  .memStream { data := data, pos := pos, seekable := sk, cap := none, closed := false }

theorem streamOf_eq_streamAt (bs : List Byte) (sk : Bool) : streamOf bs sk = streamAt bs 0 sk := rfl

theorem streamAt_srcRead (front : List Byte) (b : Byte) (tail : List Byte) (sk : Bool) :
    (streamAt (front ++ b :: tail) front.length sk).srcRead =
      some (.byte b, streamAt (front ++ b :: tail) (front.length + 1) sk) := by
  simp [streamAt, Device.srcRead, MemStream.srcRead]

/-- R61: at its end the device takes a byte behind those it holds. -/
theorem streamAt_snkWrite_end (data : List Byte) (b : Byte) (sk : Bool) :
    (streamAt data data.length sk).snkWrite b = some (.ok, streamAt (data ++ [b]) (data.length + 1) sk) := by
  have hroom : ∀ k, (none : Option Nat) = some k → data.length < k := nofun
  rw [streamAt, memStream_snkWrite_of_room rfl hroom]
  simp [putByte, streamAt]

theorem pullBytes_streamAt (front bs tail : List Byte) (sk : Bool) :
    pullBytes bs.length (streamAt (front ++ (bs ++ tail)) front.length sk) =
      some (bs, streamAt (front ++ (bs ++ tail)) (front.length + bs.length) sk) := by
  induction bs generalizing front with
  | nil => rfl
  | cons b bs ih =>
    have hrest := ih (front ++ [b])
    rw [List.append_assoc, List.singleton_append, List.length_append, List.length_singleton] at hrest
    rw [List.length_cons, pullBytes, List.cons_append, streamAt_srcRead]
    simp only [hrest, Nat.add_assoc, Nat.add_comm 1]

theorem pushBytes_streamAt_end (bs data : List Byte) (sk : Bool) :
    pushBytes bs (streamAt data data.length sk) = some (streamAt (data ++ bs) (data ++ bs).length sk) := by
  induction bs generalizing data with
  | nil => rw [List.append_nil, pushBytes]
  | cons b bs ih =>
    have hrest := ih (data ++ [b])
    rw [List.append_assoc, List.singleton_append, List.length_append, List.length_singleton] at hrest
    rw [pushBytes, streamAt_snkWrite_end]
    exact hrest

/-- R124: `VENC` on an empty sink. -/
theorem exec_venc_streamOf_nil {s : State} {sk : Bool} (h : s.port .p0 = streamOf [] sk) :
    exec .venc s = .next (succeed (some (BitVec.ofNat 64 (varintBytes s.arg0).length))
      (s.setPort .p0 (streamAt (varintBytes s.arg0) (varintBytes s.arg0).length sk))) :=
  exec_venc_of_pushBytes (h ▸ pushBytes_streamAt_end (varintBytes s.arg0) [] sk)

/-- R127: `VDEC` on a stream that begins with a complete sequence of at most ten bytes, whatever follows it. -/
theorem exec_vdec_streamOf {bs tail : List Byte} {sk : Bool} {r : State} (hbs : Terminated bs) (hle : bs.length ≤ 10)
    (h : r.port .p1 = streamOf (bs ++ tail) sk) :
    exec .vdec r = .next (succeed (some (BitVec.ofNat 64 (varintValue bs)))
      (r.setPort .p1 (streamAt (bs ++ tail) bs.length sk))) := by
  obtain ⟨front, last, rfl, hfront, hlast⟩ := hbs
  rw [List.length_append, List.length_singleton] at hle
  rw [List.append_assoc, List.singleton_append, streamOf_eq_streamAt] at h
  have hpull := pullBytes_streamAt [] front (last :: tail) sk
  rw [List.nil_append, List.length_nil, Nat.zero_add, ← h] at hpull
  rw [List.append_assoc, List.singleton_append, List.length_append, List.length_singleton]
  exact exec_vdec_of_pullBytes hpull hfront hle (streamAt_srcRead front last tail sk) hlast

/-- Settles O31: `VDEC` on what `VENC` wrote by the ends and the value of an encoding; the converse fails at `80 00`,
whose value 0 is written as `00`. -/
theorem varintRoundTrip : Obligations.VarintRoundTrip := by
  refine ⟨fun s tail sk sk' hs => ?decoded, ?longer⟩
  case decoded =>
    refine ⟨_, _, varintBytes s.arg0, exec_venc_streamOf_nil hs, succeed_status .., rfl, ?_,
      exec_vcnt s, rfl, fun r hr => ?_⟩
    · simp only [port_succeed, port_setPort_same, streamAt, List.append_nil]
    · rw [exec_vdec_streamOf (varintBytes_terminated s.arg0) (varintBytes_length_le s.arg0) hr,
        varintValue_varintBytes, BitVec.ofNat_toNat, BitVec.setWidth_eq]
      rfl
  case longer =>
    have hends : Terminated [0x80, 0x00] := ⟨[0x80], 0x00, rfl, by decide, by decide⟩
    exact ⟨State.reset.setPort .p1 (streamOf [0x80, 0x00] true), State.reset, _, _, [0x80, 0x00], rfl,
      exec_vdec_streamOf (tail := []) hends (by decide) rfl, rfl, rfl, rfl, rfl,
      exec_venc_streamOf_nil (sk := true) rfl, rfl, by decide⟩

end Sys2Proof.Machine

/-! # The bit-stream readers (spec/41_bitreader.md)

A reader's command is a gate and then its pseudocode. The pseudocode of each command is run once for each answer of the
device, and read backwards once where it succeeds; what a command returns and where it leaves the reader follow from
that. The bit position of R142 is kept as an integer, the stream offset, which a bit raises by one and no other answer
of the device changes. -/

namespace Sys2Proof.Machine

/-! ### The gate (R140, R180) -/

/-- R140, R180: a released unit stops at the gate. -/
theorem gate_released {u : BitUnit} (h : u.att = false) (s : State) : gate u s = .raised .illegalState s :=
  gate_eq_raised.mpr ⟨h, rfl, rfl⟩

/-- R140, R180: past the gate of an open unit. -/
theorem gate_bind_open {α : Type} {u : BitUnit} (h : u.att = true) (f : Unit → State → Run α) (s : State) :
    (gate u s).bind f = f () s := by
  rw [gate_open h, Run.bind_done]

/-- A command that goes on past a gate found it open. -/
theorem gate_bind_eq_done {α : Type} {u : BitUnit} {f : Unit → State → Run α} {s t : State} {a : α} :
    (gate u s).bind f = .done a t ↔ u.att = true ∧ f () s = .done a t := by
  cases h : u.att
  case false => simp [gate_released h]
  case true => simp [gate_open h]

/-- R140: every command of a reader but its `OPEN` begins with the gate. -/
theorem commandRun_eq_readerGate_bind {i : Instr} {o : BitOrder} (hu : i.unit = readerUnit o) (hopen : i ≠ rdOpen o)
    (s : State) : ∃ f, commandRun i s = (gate (s.reader o) s).bind f := by
  obtain rfl | rfl | rfl | rfl | rfl | rfl | rfl | rfl | rfl := command_of_readerUnit hu
  · exact absurd rfl hopen
  · exact ⟨_, congrFun (commandRun_rdBit o) s⟩
  · exact ⟨_, congrFun (commandRun_rdBits32 o) s⟩
  · exact ⟨_, congrFun (commandRun_rdBits64 o) s⟩
  · exact ⟨_, congrFun (commandRun_rdGetpos o) s⟩
  · exact ⟨_, congrFun (commandRun_rdSetpos o) s⟩
  · exact ⟨_, congrFun (commandRun_rdLen o) s⟩
  · exact ⟨_, congrFun (commandRun_rdEos o) s⟩
  · exact ⟨_, congrFun (commandRun_rdClose o) s⟩

/-- R180: every command of a writer but its `OPEN` begins with the gate. -/
theorem commandRun_eq_writerGate_bind {i : Instr} {o : BitOrder} (hu : i.unit = writerUnit o) (hopen : i ≠ wrOpen o)
    (s : State) : ∃ f, commandRun i s = (gate (s.writer o) s).bind f := by
  obtain rfl | rfl | rfl | rfl | rfl | rfl | rfl | rfl | rfl := command_of_writerUnit hu
  · exact absurd rfl hopen
  · exact ⟨_, congrFun (commandRun_wrBit o) s⟩
  · exact ⟨_, congrFun (commandRun_wrBits32 o) s⟩
  · exact ⟨_, congrFun (commandRun_wrBits64 o) s⟩
  · exact ⟨_, congrFun (commandRun_wrRep o) s⟩
  · exact ⟨_, congrFun (commandRun_wrGetpos o) s⟩
  · exact ⟨_, congrFun (commandRun_wrLen o) s⟩
  · exact ⟨_, congrFun (commandRun_wrFlush o) s⟩
  · exact ⟨_, congrFun (commandRun_wrClose o) s⟩

/-- R255: a command that stops at its gate does nothing but raise. -/
theorem exec_of_gate_released {i : Instr} {u : BitUnit} {s : State} (hatt : u.att = false)
    (h : ∃ f, commandRun i s = (gate u s).bind f) : exec i s = .next (raiseError .illegalState s) := by
  obtain ⟨f, hf⟩ := h
  refine exec_of_commandRun_raised ?_
  rw [hf, gate_released hatt, Run.bind_raised]

/-- Settles O20: each of these commands begins with the gate of its unit, which is closed. -/
theorem releasedUnitsRaiseIllegalState : Obligations.ReleasedUnitsRaiseIllegalState := fun _ s _ =>
  ⟨fun hu hopen hatt => exec_of_gate_released hatt (commandRun_eq_readerGate_bind hu hopen s),
    fun hu hopen hatt => exec_of_gate_released hatt (commandRun_eq_writerGate_bind hu hopen s)⟩

/-! ### The commands of an open reader, for each answer of the device -/

section Open

variable {o : BitOrder} {s t : State} {d : Device} {e : ErrorKind}

/-- R144, R153: `BIT` where `ReadBit` succeeds. -/
theorem commandRun_rdBit_done {b : Bool} (hatt : (s.reader o).att = true) (h : readBit o s = .done b t) :
    commandRun (rdBit o) s = .done (some (bitResult b)) t := by
  rw [commandRun_rdBit, readerBit, gate_bind_open hatt, h, Run.bind_done]

theorem commandRun_rdBit_raised (hatt : (s.reader o).att = true) (h : readBit o s = .raised e t) :
    commandRun (rdBit o) s = .raised e t := by
  rw [commandRun_rdBit, readerBit, gate_bind_open hatt, h, Run.bind_raised]

theorem commandRun_rdBit_stuck {f : Fault} (hatt : (s.reader o).att = true) (h : readBit o s = .stuck f) :
    commandRun (rdBit o) s = .stuck f := by
  rw [commandRun_rdBit, readerBit, gate_bind_open hatt, h, Run.bind_stuck]

/-- R142: the bit position, computed mod 2^64, is that of the integers. -/
theorem readerBitPos_ofNat (u : BitUnit) (n : Nat) :
    readerBitPos u (BitVec.ofNat 64 n) = BitVec.ofInt 64 (8 * (n : Int) + u.cur.val - 8) := by
  rw [Int.sub_eq_add_neg, BitVec.ofInt_add, BitVec.ofInt_add, BitVec.ofInt_mul, BitVec.ofInt_natCast,
    BitVec.ofInt_natCast, BitVec.ofInt_neg, ← BitVec.sub_eq_add_neg]
  rfl

theorem readerBitPos_eq_ofInt (u : BitUnit) (p : Word64) :
    readerBitPos u p = BitVec.ofInt 64 (8 * (p.toNat : Int) + u.cur.val - 8) := by
  rw [← readerBitPos_ofNat, BitVec.ofNat_toNat, BitVec.setWidth_eq]

/-- R147, R156. -/
theorem commandRun_rdGetpos_value {v : Word64} (hatt : (s.reader o).att = true)
    (h : (s.port (readPort o)).getPos = some (.value v, d)) :
    commandRun (rdGetpos o) s =
      .done (some (BitVec.ofInt 64 (8 * (v.toNat : Int) + (s.reader o).cur.val - 8))) (s.setPort (readPort o) d) := by
  rw [commandRun_rdGetpos, readerGetpos, gate_bind_open hatt, getPos_eq_done.mpr ⟨d, h, rfl⟩, Run.bind_done,
    reader_setPort, readerBitPos_eq_ofInt]

/-- R149, R158. -/
theorem commandRun_rdLen_value {v : Word64} (hatt : (s.reader o).att = true)
    (h : (s.port (readPort o)).getLen = some (.value v, d)) :
    commandRun (rdLen o) s = .done (some (BitVec.ofNat 64 (8 * v.toNat))) (s.setPort (readPort o) d) := by
  have hmul : 8#64 * v = BitVec.ofNat 64 (8 * v.toNat) := by
    rw [BitVec.ofNat_mul, BitVec.ofNat_toNat, BitVec.setWidth_eq]
  rw [commandRun_rdLen, readerLen, gate_bind_open hatt, getLen_eq_done.mpr ⟨d, h, rfl⟩, Run.bind_done, hmul]

/-- R261. -/
theorem commandRun_rdGetpos_notSeekable (hatt : (s.reader o).att = true)
    (h : (s.port (readPort o)).getPos = some (.notSeekable, d)) :
    commandRun (rdGetpos o) s = .raised .notSupported (s.setPort (readPort o) d) := by
  rw [commandRun_rdGetpos, readerGetpos, gate_bind_open hatt,
    getPos_eq_raised.mpr ⟨rfl, d, h, rfl⟩, Run.bind_raised]

/-- R261. -/
theorem commandRun_rdLen_notSeekable (hatt : (s.reader o).att = true)
    (h : (s.port (readPort o)).getLen = some (.notSeekable, d)) :
    commandRun (rdLen o) s = .raised .notSupported (s.setPort (readPort o) d) := by
  rw [commandRun_rdLen, readerLen, gate_bind_open hatt, getLen_eq_raised.mpr ⟨rfl, d, h, rfl⟩, Run.bind_raised]

/-- R148: the byte of a bit position. -/
theorem ushiftRight_three_eq_ofNat (v : Word64) : v >>> 3 = BitVec.ofNat 64 (v.toNat / 8) := by
  refine BitVec.eq_of_toNat_eq ?_
  have hv := v.isLt
  rw [BitVec.toNat_ushiftRight, Nat.shiftRight_eq_div_pow, BitVec.toNat_ofNat, Nat.mod_eq_of_lt (by omega)]

theorem seekSkip_eq_zero {v : Word64} : seekSkip v = 0 ↔ v.toNat % 8 = 0 := Fin.ext_iff

theorem seekSkip_eq_ofNat (v : Word64) : seekSkip v = Fin.ofNat 9 (v.toNat % 8) :=
  Fin.ext (Nat.mod_eq_of_lt (by omega)).symm

theorem seekSkip_ne_eight (v : Word64) : seekSkip v ≠ 8 :=
  fun h => Nat.ne_of_lt (Nat.mod_lt v.toNat (by decide : 0 < 8)) (congrArg Fin.val h)

/-- R148, R157: `SETPOS` on a device that cannot seek. -/
theorem commandRun_rdSetpos_notSeekable (hatt : (s.reader o).att = true)
    (h : (s.port (readPort o)).setPos (BitVec.ofNat 64 (s.arg0.toNat / 8)) = some (.notSeekable, d)) :
    commandRun (rdSetpos o) s = .raised .notSupported (s.setPort (readPort o) d) := by
  rw [commandRun_rdSetpos, readerSetpos, gate_bind_open hatt, ushiftRight_three_eq_ofNat,
    setPos_eq_raised.mpr ⟨rfl, d, h, rfl⟩, Run.bind_raised]

/-- R148, R157: the reader at the boundary of the target byte. -/
def State.soughtTo (o : BitOrder) (d : Device) (s : State) : State :=
  (s.setPort (readPort o) d).setReader o { s.reader o with cur := 8 }

/-- R148, R157: `SETPOS` once the device has moved: the bits of the target byte before the target are skipped. -/
theorem commandRun_rdSetpos_ok (hatt : (s.reader o).att = true)
    (h : (s.port (readPort o)).setPos (BitVec.ofNat 64 (s.arg0.toNat / 8)) = some (.ok, d)) :
    commandRun (rdSetpos o) s =
      if seekSkip s.arg0 = 0 then .done none (s.soughtTo o d)
      else (refill o (seekSkip s.arg0) (s.soughtTo o d)).bind fun _ t => .done none t := by
  rw [commandRun_rdSetpos, readerSetpos, gate_bind_open hatt, ushiftRight_three_eq_ofNat,
    setPos_eq_done (a := ()).mpr ⟨d, h, rfl⟩, Run.bind_done]
  simp only [State.soughtTo, setReader_arg0, setPort_arg0, reader_setPort]

/-- R141, R150: a pull into the reader that stands at the target byte. -/
theorem refill_soughtTo_byte {k : Cursor} {b : Byte} {d2 : Device} (h : d.srcRead = some (.byte b, d2)) :
    refill o k (s.soughtTo o d) =
      .done () ((s.setPort (readPort o) d2).setReader o { s.reader o with buf := b, cur := k }) := by
  rw [refill_byte (by simpa [State.soughtTo] using h)]
  simp [State.soughtTo, setPort_setReader]

theorem refill_soughtTo_error {k : Cursor} {a : SrcAnswer} {d2 : Device} (h : d.srcRead = some (a, d2))
    (he : a.error? = some e) :
    refill o k (s.soughtTo o d) =
      .raised e ((s.setPort (readPort o) d2).setReader o { s.reader o with cur := 8 }) := by
  rw [refill_error (by simpa [State.soughtTo] using h) he]
  simp [State.soughtTo, setPort_setReader]

/-- R150, R159: `EOS` inside a byte. -/
theorem commandRun_rdEos_inside (hatt : (s.reader o).att = true) (h : (s.reader o).cur ≠ 8) :
    commandRun (rdEos o) s = .done (some 0) s := by
  rw [commandRun_rdEos, readerEos, gate_bind_open hatt, if_neg h]

/-- R150, R159: `EOS` at a boundary behind the last byte. -/
theorem commandRun_rdEos_eof (hatt : (s.reader o).att = true) (h : (s.reader o).cur = 8)
    (hd : (s.port (readPort o)).srcRead = some (.eof, d)) :
    commandRun (rdEos o) s = .done (some 1) (s.setPort (readPort o) d) := by
  rw [commandRun_rdEos, readerEos, gate_bind_open hatt, if_pos h, srcRead_eq_done.mpr ⟨d, hd, rfl⟩, Run.bind_done]

theorem commandRun_rdEos_ioError (hatt : (s.reader o).att = true) (h : (s.reader o).cur = 8)
    (hd : (s.port (readPort o)).srcRead = some (.ioError, d)) :
    commandRun (rdEos o) s = .raised .ioError (s.setPort (readPort o) d) := by
  rw [commandRun_rdEos, readerEos, gate_bind_open hatt, if_pos h, srcRead_eq_done.mpr ⟨d, hd, rfl⟩, Run.bind_done]

/-- R150, R159: the byte `EOS` pulls is kept as the lookahead. -/
theorem commandRun_rdEos_byte {b : Byte} (hatt : (s.reader o).att = true) (h : (s.reader o).cur = 8)
    (hd : (s.port (readPort o)).srcRead = some (.byte b, d)) :
    commandRun (rdEos o) s =
      .done (some 0) ((s.setPort (readPort o) d).setReader o { s.reader o with buf := b, cur := 0 }) := by
  rw [commandRun_rdEos, readerEos, gate_bind_open hatt, if_pos h, srcRead_eq_done.mpr ⟨d, hd, rfl⟩, Run.bind_done]
  simp only [reader_setPort]

end Open

/-- Settles O37, from the four answers. -/
theorem readerGetposLen : Obligations.ReaderGetposLen :=
  ⟨rfl, rfl, rfl, rfl, fun _ _ hatt =>
    ⟨fun _ _ h => exec_of_commandRun_done (commandRun_rdGetpos_value hatt h),
      fun _ h => exec_of_commandRun_raised (commandRun_rdGetpos_notSeekable hatt h),
      fun _ _ h => exec_of_commandRun_done (commandRun_rdLen_value hatt h),
      fun _ h => exec_of_commandRun_raised (commandRun_rdLen_notSeekable hatt h)⟩⟩

/-- Settles O33, from what `ReadBit` does inside a byte and at a boundary. -/
theorem readerBitCommand : Obligations.ReaderBitCommand := by
  refine ⟨rfl, rfl, fun o s hatt => ⟨fun hcur => ?inside, fun hcur =>
    ⟨fun b d hd => ?byte, fun a e d hd he => ?error, fun hd => ?silent⟩⟩⟩
  case inside => exact exec_of_commandRun_done (commandRun_rdBit_done hatt (readBit_inside (Fin.ne_of_lt hcur)))
  case byte => exact exec_of_commandRun_done (commandRun_rdBit_done hatt (readBit_boundary (Fin.ext hcur) hd))
  case error => exact exec_of_commandRun_raised (commandRun_rdBit_raised hatt (readBit_error (Fin.ext hcur) hd he))
  case silent => exact exec_of_commandRun_stuck (commandRun_rdBit_stuck hatt (readBit_silent (Fin.ext hcur) hd))

/-- Settles O38: the move of the device, then no pull or one pull. -/
theorem readerSetposCommand : Obligations.ReaderSetposCommand := by
  refine ⟨rfl, rfl, fun o s hatt => ⟨fun d hd => ?notSeekable, fun d hd => ⟨fun hv => ?whole, fun hv =>
    ⟨fun b d2 hb => ?byte, fun a e d2 ha he => ?error⟩⟩⟩⟩
  case notSeekable => exact exec_of_commandRun_raised (commandRun_rdSetpos_notSeekable hatt hd)
  case whole =>
    have hrun := commandRun_rdSetpos_ok hatt hd
    rw [if_pos (seekSkip_eq_zero.mpr hv)] at hrun
    exact exec_of_commandRun_done hrun
  case byte =>
    have hrun := commandRun_rdSetpos_ok hatt hd
    rw [if_neg (mt seekSkip_eq_zero.mp hv), refill_soughtTo_byte hb, Run.bind_done, seekSkip_eq_ofNat] at hrun
    exact exec_of_commandRun_done hrun
  case error =>
    have hrun := commandRun_rdSetpos_ok hatt hd
    rw [if_neg (mt seekSkip_eq_zero.mp hv), refill_soughtTo_error ha he, Run.bind_raised] at hrun
    exact exec_of_commandRun_raised hrun

/-- Settles O39, inside a byte and for each answer of the source at a boundary. -/
theorem readerEosCommand : Obligations.ReaderEosCommand :=
  ⟨rfl, rfl, fun _ _ hatt =>
    ⟨fun hcur => exec_of_commandRun_done (commandRun_rdEos_inside hatt (Fin.ne_of_lt hcur)),
      fun hcur => ⟨fun _ hd => exec_of_commandRun_done (commandRun_rdEos_eof hatt (Fin.ext hcur) hd),
        fun _ hd => exec_of_commandRun_raised (commandRun_rdEos_ioError hatt (Fin.ext hcur) hd),
        fun _ _ hd => exec_of_commandRun_done (commandRun_rdEos_byte hatt (Fin.ext hcur) hd)⟩⟩⟩

/-! ### A field of bits (R145, R162) -/

/-- R145, R257: the loop over `n` bits of a source that fails at the pull after `k` of the bytes they need: the bytes
before are consumed, and the reader rests at that boundary. -/
theorem readBits_of_failed_pull {o : BitOrder} {w n k : Nat} (r : BitVec w) {s : State} {bs : List Byte}
    {d d2 : Device} {a : SrcAnswer} {e : ErrorKind} (hk : k < pullsNeeded (s.reader o).cur n)
    (h : pullBytes k (s.port (readPort o)) = some (bs, d)) (hd : d.srcRead = some (a, d2))
    (he : a.error? = some e) :
    readBits o n r s = .raised e ((s.setPort (readPort o) d2).setReader o
      { s.reader o with buf := bs.getLastD (s.reader o).buf, cur := 8 }) := by
  induction n generalizing r s k bs with
  | zero =>
    rw [pullsNeeded_zero] at hk
    exact absurd hk (Nat.not_lt_zero k)
  | succ n ih =>
    rw [readBits_succ]
    by_cases hcur : (s.reader o).cur = 8
    · cases k with
      | zero =>
        obtain ⟨rfl, rfl⟩ := pullBytes_zero_eq_some h
        rw [readBit_error hcur hd he, Run.bind_raised, List.getLastD_nil, ← hcur,
          ← reader_setPort s (readPort o) d2 o, setReader_reader]
      | succ k =>
        obtain ⟨b, d1, bs1, hb, hbs, rfl⟩ := pullBytes_succ_eq_some h
        rw [hcur, pullsNeeded_boundary] at hk
        rw [readBit_boundary hcur hb, Run.bind_done, ih (k := k) _ (by simpa using hk) (by simpa using hbs),
          List.getLastD_cons]
        simp [setPort_setReader]
    · rw [pullsNeeded_inside hcur] at hk
      rw [readBit_inside hcur, Run.bind_done, ih (k := k) _ (by simpa using hk) (by simpa using h)]
      simp [setPort_setReader]

/-- R145, R146: an open reader's `BITS` with a legal count is the loop over its bits. -/
theorem readerBits_open {o : BitOrder} {w n : Nat} {s : State} (hatt : (s.reader o).att = true)
    (hn : s.arg1.toInt = n) (hw : n ≤ w) :
    readerBits o w s = (readBits o n (0 : BitVec w) s).bind fun r t => .done (some (zext64 r)) t := by
  have hcount : countOperand w s = .done n s := countOperand_eq_done.mpr ⟨hn, hw, rfl⟩
  rw [readerBits, gate_bind_open hatt, hcount, Run.bind_done]

/-- Settles O35, at both widths by the loop up to the pull that fails. -/
theorem readerBitsSourceFailure : Obligations.ReaderBitsSourceFailure := by
  intro o s n k bs d d2 a e u hatt hn hk h hd he
  have hrun (w : Nat) (hw : n ≤ w) : readerBits o w s = .raised e ((s.setPort (readPort o) d2).setReader o
      { att := true, buf := bs.getLastD (s.reader o).buf, cur := 8 }) := by
    rw [readerBits_open hatt hn hw, readBits_of_failed_pull _ hk h hd he, Run.bind_raised, ← hatt]
  exact ⟨fun hle => exec_of_commandRun_raised ((congrFun (commandRun_rdBits32 o) s).trans (hrun 32 hle)),
    fun hle => exec_of_commandRun_raised ((congrFun (commandRun_rdBits64 o) s).trans (hrun 64 hle))⟩

/-- R103: a command with a result overwrites what the end of the command before it left. -/
theorem succeed_some_succeed (v : Word64) (r : Option Word64) (s : State) :
    succeed (some v) (succeed r s) = succeed (some v) s := by cases r <;> rfl

theorem raiseError_succeed (e : ErrorKind) (r : Option Word64) (s : State) :
    raiseError e (succeed r s) = raiseError e s := by cases r <;> rfl

/-- R141: `ReadBit` does not see what the end of the command before it left. -/
theorem readBit_succeed (o : BitOrder) (v : Option Word64) (s : State) :
    readBit o (succeed v s) = (readBit o s).map (succeed v) := by
  by_cases hcur : (s.reader o).cur = 8
  case neg =>
    rw [readBit_inside hcur, readBit_inside (by rwa [reader_succeed]), reader_succeed, ← succeed_setReader]
    rfl
  case pos =>
    have hcur' : ((succeed v s).reader o).cur = 8 := by rwa [reader_succeed]
    have hport := port_succeed v s (readPort o)
    rcases hd : (s.port (readPort o)).srcRead with _ | ⟨b | _ | _, d⟩
    · rw [readBit_silent hcur hd, readBit_silent hcur' (by rwa [hport])]
      rfl
    · rw [readBit_boundary hcur hd, readBit_boundary hcur' (by rwa [hport]), reader_succeed, ← succeed_setPort,
        ← succeed_setReader]
      rfl
    all_goals
      rw [readBit_error hcur hd rfl, readBit_error hcur' (by rwa [hport]) rfl, ← succeed_setPort]
      rfl

/-- R144, R153: nor does `BIT`, which sets both `STATUS` and `RES`. -/
theorem exec_rdBit_succeed {o : BitOrder} (v : Option Word64) {s : State} (hatt : (s.reader o).att = true) :
    exec (rdBit o) (succeed v s) = exec (rdBit o) s := by
  have hatt' : ((succeed v s).reader o).att = true := by rwa [reader_succeed]
  have hrun := readBit_succeed o v s
  cases h : readBit o s with
  | done b t =>
    rw [h] at hrun
    rw [exec_of_commandRun_done (commandRun_rdBit_done hatt h),
      exec_of_commandRun_done (commandRun_rdBit_done hatt' hrun), succeed_some_succeed]
  | raised e t =>
    rw [h] at hrun
    rw [exec_of_commandRun_raised (commandRun_rdBit_raised hatt h),
      exec_of_commandRun_raised (commandRun_rdBit_raised hatt' hrun), raiseError_succeed]
  | stuck f =>
    rw [h] at hrun
    rw [exec_of_commandRun_stuck (commandRun_rdBit_stuck hatt h),
      exec_of_commandRun_stuck (commandRun_rdBit_stuck hatt' hrun)]

theorem bitByBitRead_succeed {o : BitOrder} (n : Nat) (r : Word64) (v : Option Word64) {s : State}
    (hatt : (s.reader o).att = true) : bitByBitRead o n r (succeed v s) = bitByBitRead o n r s := by
  cases n with
  | zero => cases v <;> rfl
  | succ n => rw [bitByBitRead, bitByBitRead, exec_rdBit_succeed v hatt]

/-- R281: `ReadBit` neither opens nor releases the reader. -/
theorem readBit_keeps_att {o : BitOrder} {s t : State} {b : Bool} (h : readBit o s = .done b t) :
    (t.reader o).att = (s.reader o).att :=
  (readBit_meets (readerStable_att (s.reader o).att) (s := s) rfl).1 b t h

/-- R145: one bit packed behind those before it. -/
theorem shiftLeft_one_or_bitResult (l : List Bool) (b : Bool) :
    (BitVec.ofNat 64 (valueOfBits l) <<< 1) ||| bitResult b = BitVec.ofNat 64 (valueOfBits (l ++ [b])) := by
  rw [valueOfBits_concat, ← shiftInBit_ofNat]
  rfl

/-- R162: the loop over the next `n` bits, after the bits `l` of a field they share the width with, is `n` more `BIT`
commands. -/
theorem finish_readBits_eq_bitByBitRead {o : BitOrder} {w : Nat} (n : Nat) (l : List Bool) {s : State}
    (hatt : (s.reader o).att = true) (hw : l.length + n ≤ w) :
    finish ((readBits o n (l.foldl shiftInBit (0 : BitVec w)) s).bind fun r t => .done (some (zext64 r)) t) =
      bitByBitRead o n (BitVec.ofNat 64 (valueOfBits l)) s := by
  induction n generalizing l s with
  | zero =>
    rw [readBits_zero, Run.bind_done, zext64_foldl_shiftInBit hw]
    rfl
  | succ n ih =>
    rw [readBits_succ, bitByBitRead]
    cases h : readBit o s with
    | done b t =>
      have hatt' : (t.reader o).att = true := (readBit_keeps_att h).trans hatt
      have hfold : shiftInBit (l.foldl shiftInBit (0 : BitVec w)) b = (l ++ [b]).foldl shiftInBit 0 := by
        rw [List.foldl_append, List.foldl_cons, List.foldl_nil]
      rw [exec_of_commandRun_done (commandRun_rdBit_done hatt h), Run.bind_done, hfold,
        ih (l ++ [b]) hatt' (by rw [List.length_append, List.length_singleton]; omega),
        ← shiftLeft_one_or_bitResult, ← bitByBitRead_succeed n _ (some (bitResult b)) hatt']
      rfl
    | raised e t =>
      rw [exec_of_commandRun_raised (commandRun_rdBit_raised hatt h)]
      exact (if_neg (errorCode_ne_zero e)).symm
    | stuck f =>
      rw [exec_of_commandRun_stuck (commandRun_rdBit_stuck hatt h)]
      rfl

/-- Settles O36, at both widths by the loop begun with no bits. -/
theorem readerBitsAreBitByBit : Obligations.ReaderBitsAreBitByBit := by
  intro o s n hatt hn
  have hrun (w : Nat) (hw : n ≤ w) : finish (readerBits o w s) = bitByBitRead o n 0 s := by
    rw [readerBits_open hatt hn hw]
    exact finish_readBits_eq_bitByBitRead n [] hatt (by rwa [List.length_nil, Nat.zero_add])
  refine ⟨fun hle => ?_, fun hle => ?_⟩
  · rw [exec_eq_finish, commandRun_rdBits32, hrun 32 hle]
  · rw [exec_eq_finish, commandRun_rdBits64, hrun 64 hle]

/-! ### What a successful command did -/

section Success

variable {o : BitOrder} {s t : State}

/-- R250: a command that ends with `STATUS` 0 did not raise. -/
theorem commandRun_done_of_success {i : Instr} (h : exec i s = .next t) (ht : t.status = 0) :
    ∃ v u, commandRun i s = .done v u ∧ t = succeed v u := by
  rw [exec_eq_finish] at h
  obtain hdone | ⟨e, u, -, rfl⟩ := finish_eq_next.mp h
  · exact hdone
  · exact absurd ht (errorCode_ne_zero e)

/-- R141: a byte was pulled. -/
theorem pull_of_refill_done {k : Cursor} {a : Unit} (h : refill o k s = .done a t) :
    ∃ b d, (s.port (readPort o)).srcRead = some (.byte b, d) ∧
      t = (s.setPort (readPort o) d).setReader o { s.reader o with buf := b, cur := k } := by
  obtain ⟨ans, u, hread, hans⟩ := Run.bind_eq_done.mp h
  obtain ⟨d, hd, rfl⟩ := srcRead_eq_done.mp hread
  cases ans with
  | byte b =>
    rw [refill_byte hd] at h
    cases h
    exact ⟨b, d, hd, rfl⟩
  | eof => cases hans
  | ioError => cases hans

/-- R141: a bit was taken from the buffered byte, or a byte was pulled and its first bit taken. -/
theorem readBit_done_cases {v : Bool} (h : readBit o s = .done v t) :
    ((s.reader o).cur ≠ 8 ∧ v = streamBit o (s.reader o).buf (s.reader o).cur.val ∧
      t = s.setReader o { s.reader o with cur := (s.reader o).cur + 1 }) ∨
    ((s.reader o).cur = 8 ∧ ∃ b d, (s.port (readPort o)).srcRead = some (.byte b, d) ∧ v = streamBit o b 0 ∧
      t = (s.setPort (readPort o) d).setReader o { s.reader o with buf := b, cur := 1 }) := by
  by_cases hcur : (s.reader o).cur = 8
  · have hpull := h
    rw [readBit, if_pos hcur] at hpull
    obtain ⟨_, u, hrefill, -⟩ := Run.bind_eq_done.mp hpull
    obtain ⟨b, d, hd, -⟩ := pull_of_refill_done hrefill
    rw [readBit_boundary hcur hd] at h
    cases h
    exact .inr ⟨hcur, b, d, hd, rfl, rfl⟩
  · rw [readBit_inside hcur] at h
    cases h
    exact .inl ⟨hcur, rfl, rfl⟩

/-- R144, R153: the bit a successful `BIT` returns. -/
theorem readBit_of_rdBit_success (h : exec (rdBit o) s = .next t) (ht : t.status = 0) :
    ∃ b u, readBit o s = .done b u ∧ t = succeed (some (bitResult b)) u := by
  obtain ⟨v, u, hrun, rfl⟩ := commandRun_done_of_success h ht
  rw [commandRun_rdBit, readerBit, gate_bind_eq_done] at hrun
  obtain ⟨-, hbind⟩ := hrun
  obtain ⟨b, w, hbit, hv⟩ := Run.bind_eq_done.mp hbind
  cases hv
  exact ⟨b, u, hbit, rfl⟩

/-- R145, R146: the count and the loop of a successful `BITS`. -/
theorem readBits_of_readerBits_eq_done {w : Nat} {v : Option Word64} (h : readerBits o w s = .done v t) :
    ∃ (n : Nat) (r : BitVec w), s.arg1.toInt = n ∧ readBits o n (0 : BitVec w) s = .done r t := by
  obtain ⟨-, hcounted⟩ := gate_bind_eq_done.mp h
  obtain ⟨n, u, hcount, hloop⟩ := Run.bind_eq_done.mp hcounted
  obtain ⟨hn, -, rfl⟩ := countOperand_eq_done.mp hcount
  obtain ⟨r, u, hbits, hv⟩ := Run.bind_eq_done.mp hloop
  cases hv
  exact ⟨n, r, hn, hbits⟩

/-- R148, R157: the device was moved to the byte of the target, which was pulled if the target is inside it. -/
theorem commandRun_rdSetpos_done_cases {v : Option Word64} (h : commandRun (rdSetpos o) s = .done v t) :
    (s.reader o).att = true ∧
    ∃ d, (s.port (readPort o)).setPos (BitVec.ofNat 64 (s.arg0.toNat / 8)) = some (.ok, d) ∧
      ((s.arg0.toNat % 8 = 0 ∧ t = s.soughtTo o d) ∨
        ∃ b d2, d.srcRead = some (.byte b, d2) ∧ s.arg0.toNat % 8 ≠ 0 ∧
          t = (s.setPort (readPort o) d2).setReader o { s.reader o with buf := b, cur := seekSkip s.arg0 }) := by
  obtain ⟨hatt, hseek⟩ := gate_bind_eq_done.mp ((congrFun (commandRun_rdSetpos o) s).symm.trans h)
  obtain ⟨_, u, hset, -⟩ := Run.bind_eq_done.mp hseek
  obtain ⟨d, hd, -⟩ := setPos_eq_done.mp hset
  rw [ushiftRight_three_eq_ofNat] at hd
  refine ⟨hatt, d, hd, ?_⟩
  rw [commandRun_rdSetpos_ok hatt hd] at h
  split at h
  case isTrue hzero =>
    cases h
    exact .inl ⟨seekSkip_eq_zero.mp hzero, rfl⟩
  case isFalse hskip =>
    obtain ⟨_, u, hrefill, ht⟩ := Run.bind_eq_done.mp h
    cases ht
    obtain ⟨b, d2, hb, -⟩ := pull_of_refill_done hrefill
    have hb' : d.srcRead = some (.byte b, d2) := by simpa [State.soughtTo] using hb
    rw [refill_soughtTo_byte hb'] at hrefill
    cases hrefill
    exact .inr ⟨b, d2, hb', mt seekSkip_eq_zero.mpr hskip, rfl⟩

end Success

/-! ### Where a device stands (R53 to R57) -/

theorem Device.Rests.bytePos_eq {d d' : Device} (h : d.Rests d') : d'.bytePos = d.bytePos := by
  obtain rfl | ⟨o, ds, rfl, rfl⟩ := h <;> rfl

theorem MemStream.srcRead_of_some {m : MemStream} {b : Byte} (hopen : m.closed = false) (hb : m.data[m.pos]? = some b) :
    (Device.memStream m).srcRead = some (.byte b, .memStream { m with pos := m.pos + 1 }) := by
  simp [Device.srcRead, MemStream.srcRead, hopen, hb]

theorem MemStream.srcRead_of_none {m : MemStream} (hopen : m.closed = false) (hb : m.data[m.pos]? = none) :
    (Device.memStream m).srcRead = some (.eof, .memStream m) := by
  simp [Device.srcRead, MemStream.srcRead, hopen, hb]

/-- R61: a byte read is the one at the position. -/
theorem MemStream.srcRead_eq_byte {m : MemStream} {b : Byte} {d : Device}
    (h : (Device.memStream m).srcRead = some (.byte b, d)) :
    m.data[m.pos]? = some b ∧ d = .memStream { m with pos := m.pos + 1 } := by
  by_cases hclosed : m.closed = true
  · simp [Device.srcRead, MemStream.srcRead, hclosed] at h
  have hopen : m.closed = false := Bool.eq_false_of_not_eq_true hclosed
  cases hb : m.data[m.pos]? with
  | none =>
    rw [MemStream.srcRead_of_none hopen hb] at h
    cases h
  | some c =>
    rw [MemStream.srcRead_of_some hopen hb] at h
    cases h
    exact ⟨rfl, rfl⟩

/-- R53: a byte read moves the device one further. -/
theorem Device.srcRead_byte_bytePos {d d' : Device} {b : Byte} (h : d.srcRead = some (.byte b, d')) :
    d'.bytePos = d.bytePos + 1 := by
  rcases d with m | ⟨_ | ⟨⟨_ | _ | _, w, l⟩, ds⟩, pos, hd, sk, cl⟩
  · obtain ⟨-, rfl⟩ := MemStream.srcRead_eq_byte h
    rfl
  all_goals cases h
  rfl

/-- R55: a device that answers `GetPos` answers where it stands, if it can seek. -/
theorem Device.getPos_eq {d d' : Device} {a : ValueAnswer} (h : d.getPos = some (a, d')) :
    a = if d.seekable then .value (BitVec.ofNat 64 d.bytePos) else .notSeekable := by
  rcases d with m | ⟨_ | ⟨_, ds⟩, pos, hd, sk, cl⟩ <;> cases h <;> rfl

/-- R56: a device that accepts `SetPos` can seek and stands at the target. -/
theorem Device.setPos_ok {d d' : Device} {v : Word64} (h : d.setPos v = some (.ok, d')) :
    d'.seekable = true ∧ d'.bytePos = v.toNat := by
  rcases d with m | ⟨_ | ⟨_, ds⟩, pos, hd, sk, cl⟩
  · rw [Device.setPos] at h
    split at h <;> cases h
    next hseek => exact ⟨hseek, rfl⟩
  · cases h
  · simp only [Device.setPos] at h
    split at h <;> cases h
    next hseek => exact ⟨hseek, rfl⟩

/-! ### The bit position (R142) -/

/-- R142: the bit position as an integer, which is what `bitPosition` keeps mod 2^64. -/
def streamOffset (o : BitOrder) (s : State) : Int :=
  8 * ((s.port (readPort o)).bytePos : Int) + (s.reader o).cur.val - 8

/-- R142, R161: the reader stands at the same bit in both states. -/
def AtSameBit (o : BitOrder) (s t : State) : Prop := streamOffset o t = streamOffset o s

theorem bitPosition_eq_ofInt (o : BitOrder) (s : State) : bitPosition o s = BitVec.ofInt 64 (streamOffset o s) := rfl

section Offset

variable {o : BitOrder} {s t : State}

@[simp] theorem streamOffset_succeed (v : Option Word64) (s : State) :
    streamOffset o (succeed v s) = streamOffset o s := by
  rw [streamOffset, port_succeed, reader_succeed, streamOffset]

@[simp] theorem streamOffset_raiseError (e : ErrorKind) (s : State) :
    streamOffset o (raiseError e s) = streamOffset o s := by
  rw [streamOffset, port_raiseError, reader_raiseError, streamOffset]

theorem streamOffset_setReader (s : State) (u : BitUnit) :
    streamOffset o (s.setReader o u) = 8 * ((s.port (readPort o)).bytePos : Int) + u.cur.val - 8 := by
  rw [streamOffset, port_setReader, reader_setReader_same]

theorem AtSameBit.bitPosition_eq (h : AtSameBit o s t) : bitPosition o t = bitPosition o s :=
  congrArg (BitVec.ofInt 64) h

theorem AtRest.atSameBit (h : AtRest (readPort o) s t) : AtSameBit o s t := by
  obtain ⟨d, hd, rfl⟩ := h
  rw [AtSameBit, streamOffset, port_setPort_same, reader_setPort, hd.bytePos_eq, streamOffset]

/-- A byte pulled with `k` bits skipped: the reader stands `k` bits behind the boundary it came from. -/
theorem streamOffset_of_pull {b : Byte} {d : Device} (hd : (s.port (readPort o)).srcRead = some (.byte b, d))
    (u : BitUnit) : streamOffset o ((s.setPort (readPort o) d).setReader o u) =
      8 * ((s.port (readPort o)).bytePos : Int) + u.cur.val := by
  rw [streamOffset_setReader, port_setPort_same, Device.srcRead_byte_bytePos hd]
  omega

/-- R142: at a boundary the reader stands where its device does. -/
theorem streamOffset_boundary (h : (s.reader o).cur = 8) :
    streamOffset o s = 8 * ((s.port (readPort o)).bytePos : Int) := by
  rw [streamOffset, h]
  exact Int.add_sub_cancel _ 8

theorem readBit_streamOffset {b : Bool} (h : readBit o s = .done b t) : streamOffset o t = streamOffset o s + 1 := by
  obtain ⟨hcur, -, rfl⟩ | ⟨hcur, c, d, hd, -, rfl⟩ := readBit_done_cases h
  · have hval := Cursor.val_add_one hcur
    rw [streamOffset_setReader, hval, streamOffset]
    omega
  · rw [streamOffset_of_pull hd, streamOffset_boundary hcur]
    rfl

theorem readBits_streamOffset {w n : Nat} {r r' : BitVec w} (h : readBits o n r s = .done r' t) :
    streamOffset o t = streamOffset o s + n := by
  induction n generalizing r s with
  | zero =>
    cases h
    exact (Int.add_zero _).symm
  | succ n ih =>
    rw [readBits_succ] at h
    obtain ⟨b, u, hbit, hrest⟩ := Run.bind_eq_done.mp h
    rw [ih hrest, readBit_streamOffset hbit]
    omega

theorem readerBits_bitPosition {w : Nat} {v : Option Word64} (h : readerBits o w s = .done v t) :
    bitPosition o (succeed v t) = bitPosition o s + BitVec.ofInt 64 s.arg1.toInt := by
  obtain ⟨n, r, hn, hbits⟩ := readBits_of_readerBits_eq_done h
  rw [bitPosition_eq_ofInt, streamOffset_succeed, readBits_streamOffset hbits, BitVec.ofInt_add, hn,
    bitPosition_eq_ofInt]

theorem exec_bitPosition_of_meets {i : Instr} (h : exec i s = .next t)
    (hr : (commandRun i s).Meets (fun _ => AtSameBit o s) (AtSameBit o s)) : bitPosition o t = bitPosition o s :=
  AtSameBit.bitPosition_eq (exec_keeps_of_meets hr (fun v u hu => (streamOffset_succeed v u).trans hu)
    (fun e u hu => (streamOffset_raiseError e u).trans hu) h)

/-- R150, R159: a byte kept as the lookahead has none of its bits consumed. -/
theorem readerEos_meets_atSameBit (o : BitOrder) (s : State) :
    (readerEos o s).Meets (fun _ => AtSameBit o s) (AtSameBit o s) := by
  refine readerGate_bind_meets rfl ?_
  dsimp only
  split
  case isTrue hcur =>
    refine (srcRead_meets _ s).bind fun a u hu => ?_
    cases a with
    | byte b =>
      obtain ⟨d, hd, rfl⟩ := hu
      refine .done ?_
      rw [AtSameBit, streamOffset_of_pull hd, streamOffset_boundary hcur]
      exact Int.add_zero _
    | eof => exact .done (hu.atRest fun _ => SrcAnswer.noConfusion).atSameBit
    | ioError => exact .raised (hu.atRest fun _ => SrcAnswer.noConfusion).atSameBit
  case isFalse => exact .done rfl

theorem readerLen_meets_atSameBit (o : BitOrder) (s : State) :
    (readerLen o s).Meets (fun _ => AtSameBit o s) (AtSameBit o s) :=
  readerGate_bind_meets rfl (((getLen_meets _ s).imp (fun _ _ hu => hu.atSameBit) fun _ hu =>
    hu.atSameBit).bind fun _ _ hu => .done hu)

theorem readerGetpos_meets_atSameBit (o : BitOrder) (s : State) :
    (readerGetpos o s).Meets (fun _ => AtSameBit o s) (AtSameBit o s) :=
  readerGate_bind_meets rfl (((getPos_meets _ s).imp (fun _ _ hu => hu.atSameBit) fun _ hu =>
    hu.atSameBit).bind fun _ _ hu => .done hu)

/-- R142, R147: `GETPOS` answers the bit position. -/
theorem readerGetpos_done_res {v : Option Word64} (h : readerGetpos o s = .done v t) : v = some (bitPosition o s) := by
  obtain ⟨-, hget⟩ := gate_bind_eq_done.mp h
  obtain ⟨p, u, hp, hv⟩ := Run.bind_eq_done.mp hget
  obtain ⟨d, hd, rfl⟩ := getPos_eq_done.mp hp
  have hpos := Device.getPos_eq hd
  split at hpos <;> cases hpos
  cases hv
  rw [readerBitPos_ofNat, reader_setPort]
  rfl

/-- R140, R261: `GETPOS` of an open reader raises only on a device that cannot seek. -/
theorem readerGetpos_ne_raised {e : ErrorKind} (hatt : (s.reader o).att = true)
    (hseek : (s.port (readPort o)).seekable = true) : readerGetpos o s ≠ .raised e t := by
  rw [readerGetpos, gate_bind_open hatt]
  intro h
  obtain hp | ⟨p, u, -, hdone⟩ := Run.bind_eq_raised.mp h
  · obtain ⟨-, d, hd, -⟩ := getPos_eq_raised.mp hp
    have hpos := Device.getPos_eq hd
    rw [if_pos hseek] at hpos
    cases hpos
  · cases hdone

theorem exec_rdGetpos_res (h : exec (rdGetpos o) s = .next t) (ht : t.status = 0) : t.res = bitPosition o s := by
  obtain ⟨v, u, hrun, rfl⟩ := commandRun_done_of_success h ht
  rw [commandRun_rdGetpos] at hrun
  cases readerGetpos_done_res hrun
  rfl

theorem exec_rdGetpos_status (hatt : (s.reader o).att = true) (hseek : (s.port (readPort o)).seekable = true)
    (h : exec (rdGetpos o) s = .next t) : t.status = 0 := by
  rw [exec_eq_finish, commandRun_rdGetpos] at h
  obtain ⟨v, u, -, rfl⟩ | ⟨e, u, hraised, -⟩ := finish_eq_next.mp h
  · exact succeed_status v u
  · exact absurd hraised (readerGetpos_ne_raised hatt hseek)

end Offset

/-- Settles O42, command by command, from the stream offset its pseudocode leaves. -/
theorem bitPositionAdvances : Obligations.BitPositionAdvances := by
  refine fun o s t => ⟨fun h ht => ?bit, fun h ht => ?bits32, fun h ht => ?bits64, fun h => ?eos, fun h => ?len,
    fun h => ⟨?getpos, exec_rdGetpos_res h⟩⟩
  case bit =>
    obtain ⟨b, u, hbit, rfl⟩ := readBit_of_rdBit_success h ht
    rw [bitPosition_eq_ofInt, streamOffset_succeed, readBit_streamOffset hbit, BitVec.ofInt_add, bitPosition_eq_ofInt]
    rfl
  case bits32 =>
    obtain ⟨v, u, hrun, rfl⟩ := commandRun_done_of_success h ht
    exact readerBits_bitPosition ((congrFun (commandRun_rdBits32 o) s).symm.trans hrun)
  case bits64 =>
    obtain ⟨v, u, hrun, rfl⟩ := commandRun_done_of_success h ht
    exact readerBits_bitPosition ((congrFun (commandRun_rdBits64 o) s).symm.trans hrun)
  case eos =>
    refine exec_bitPosition_of_meets h ?_
    rw [commandRun_rdEos]
    exact readerEos_meets_atSameBit o s
  case len =>
    refine exec_bitPosition_of_meets h ?_
    rw [commandRun_rdLen]
    exact readerLen_meets_atSameBit o s
  case getpos =>
    refine exec_bitPosition_of_meets h ?_
    rw [commandRun_rdGetpos]
    exact readerGetpos_meets_atSameBit o s

/-! ### After a `SETPOS` (R161) -/

section Sought

variable {o : BitOrder} {s t : State} {v : Option Word64}

/-- R148: the byte of a bit position, as a position of the device. -/
theorem toNat_ofNat_div_eight (w : Word64) : (BitVec.ofNat 64 (w.toNat / 8)).toNat = w.toNat / 8 := by
  have hw := w.isLt
  rw [BitVec.toNat_ofNat, Nat.mod_eq_of_lt (by omega)]

/-- R148, R161: the reader stands at the target, on a device that can seek. -/
theorem streamOffset_of_rdSetpos_done (h : commandRun (rdSetpos o) s = .done v t) :
    (t.reader o).att = true ∧ (t.port (readPort o)).seekable = true ∧ streamOffset o t = s.arg0.toNat := by
  obtain ⟨hatt, d, hset, hcases⟩ := commandRun_rdSetpos_done_cases h
  obtain ⟨hseek, hpos⟩ := Device.setPos_ok hset
  rw [toNat_ofNat_div_eight] at hpos
  obtain ⟨hzero, rfl⟩ | ⟨b, d2, hb, -, rfl⟩ := hcases
  · refine ⟨by rwa [State.soughtTo, reader_setReader_same],
      by rwa [State.soughtTo, port_setReader, port_setPort_same], ?_⟩
    rw [streamOffset_boundary (by rw [State.soughtTo, reader_setReader_same]), State.soughtTo, port_setReader,
      port_setPort_same, hpos]
    omega
  · refine ⟨by rwa [reader_setReader_same], ?_, ?_⟩
    · rw [port_setReader, port_setPort_same, Device.srcRead_seekable hb, hseek]
    · rw [streamOffset_setReader, port_setPort_same, Device.srcRead_byte_bytePos hb, hpos]
      simp only [seekSkip]
      omega

/-- R148, R161: on a reference device the next bit is the target: the first of the byte there, pulled now, or one
inside the byte pulled by `SETPOS`. -/
theorem readBit_after_rdSetpos {m : MemStream} {u : State} {c : Bool}
    (hm : s.port (readPort o) = .memStream m) (h : commandRun (rdSetpos o) s = .done v t)
    (hbit : readBit o t = .done c u) :
    ∃ b, m.data[s.arg0.toNat / 8]? = some b ∧ c = streamBit o b (s.arg0.toNat % 8) := by
  obtain ⟨-, d, hset, hcases⟩ := commandRun_rdSetpos_done_cases h
  obtain rfl : d = .memStream { m with pos := s.arg0.toNat / 8 } := by
    rw [hm, Device.setPos, toNat_ofNat_div_eight] at hset
    split at hset <;> cases hset
    rfl
  obtain ⟨hzero, rfl⟩ | ⟨b, d2, hb, -, rfl⟩ := hcases
  · obtain ⟨hcur, -⟩ | ⟨-, b, d2, hb, rfl, -⟩ := readBit_done_cases hbit
    · exact absurd (by rw [State.soughtTo, reader_setReader_same]) hcur
    · rw [State.soughtTo, port_setReader, port_setPort_same] at hb
      exact ⟨b, (MemStream.srcRead_eq_byte hb).1, by rw [hzero]⟩
  · rw [readBit_inside (by rw [reader_setReader_same]; exact seekSkip_ne_eight s.arg0), reader_setReader_same] at hbit
    cases hbit
    exact ⟨b, (MemStream.srcRead_eq_byte hb).1, rfl⟩

end Sought

/-- Settles O41: where `SETPOS` leaves the reader, `GETPOS` reports and the next `BIT` reads. -/
theorem setposThenGetposAndBit : Obligations.SetposThenGetposAndBit := by
  intro o s t h ht
  obtain ⟨v, u, hrun, rfl⟩ := commandRun_done_of_success h ht
  obtain ⟨hatt, hseek, hoffset⟩ := streamOffset_of_rdSetpos_done hrun
  refine ⟨fun t2 hget => ?getpos, fun m t2 hm hbit ht2 => ?bit⟩
  case getpos =>
    have hstatus := exec_rdGetpos_status (by rwa [reader_succeed]) (by rwa [port_succeed]) hget
    refine ⟨hstatus, ?_⟩
    rw [exec_rdGetpos_res hget hstatus, bitPosition_eq_ofInt, streamOffset_succeed, hoffset, BitVec.ofInt_natCast,
      BitVec.ofNat_toNat, BitVec.setWidth_eq]
  case bit =>
    rw [exec_rdBit_succeed v hatt] at hbit
    obtain ⟨c, w, hread, rfl⟩ := readBit_of_rdBit_success hbit ht2
    obtain ⟨b, hb, rfl⟩ := readBit_after_rdSetpos hm hrun hread
    exact ⟨b, hb, rfl⟩

/-! ### The end of a reference device (R161) -/

section End

variable {o : BitOrder} {s : State} {m : MemStream}

/-- R150, R161: on an open reference device `EOS` completes, with 1 exactly at the boundary behind the last byte. -/
theorem exec_rdEos_memStream (hatt : (s.reader o).att = true) (hm : s.port (readPort o) = .memStream m)
    (hopen : m.closed = false) :
    ∃ u, exec (rdEos o) s =
      .next (succeed (some (if (s.reader o).cur = 8 ∧ m.data.length ≤ m.pos then 1 else 0)) u) := by
  by_cases hcur : (s.reader o).cur = 8
  case neg =>
    rw [if_neg fun hc => hcur hc.1]
    exact ⟨s, exec_of_commandRun_done (commandRun_rdEos_inside hatt hcur)⟩
  case pos =>
    rcases hb : m.data[m.pos]? with _ | b
    · have hread := hm ▸ MemStream.srcRead_of_none hopen hb
      rw [if_pos ⟨hcur, List.getElem?_eq_none_iff.mp hb⟩]
      exact ⟨_, exec_of_commandRun_done (commandRun_rdEos_eof hatt hcur hread)⟩
    · have hread := hm ▸ MemStream.srcRead_of_some hopen hb
      have hlt : m.pos < m.data.length := (List.getElem?_eq_some_iff.mp hb).1
      rw [if_neg fun hc => Nat.not_le.mpr hlt hc.2]
      exact ⟨_, exec_of_commandRun_done (commandRun_rdEos_byte hatt hcur hread)⟩

/-- R142, R147: `GETPOS` on a seekable reference device. -/
theorem exec_rdGetpos_memStream (hatt : (s.reader o).att = true) (hm : s.port (readPort o) = .memStream m)
    (hseek : m.seekable = true) :
    ∃ u, exec (rdGetpos o) s = .next (succeed
      (some (BitVec.ofInt 64 (8 * ((BitVec.ofNat 64 m.pos).toNat : Int) + (s.reader o).cur.val - 8))) u) := by
  have hpos : (s.port (readPort o)).getPos = some (.value (BitVec.ofNat 64 m.pos), .memStream m) := by
    rw [hm, Device.getPos, if_pos hseek]
  exact ⟨_, exec_of_commandRun_done (commandRun_rdGetpos_value hatt hpos)⟩

/-- R149: `LEN` on a seekable reference device. -/
theorem exec_rdLen_memStream (hatt : (s.reader o).att = true) (hm : s.port (readPort o) = .memStream m)
    (hseek : m.seekable = true) :
    ∃ u, exec (rdLen o) s =
      .next (succeed (some (BitVec.ofNat 64 (8 * (BitVec.ofNat 64 m.data.length).toNat))) u) := by
  have hlen : (s.port (readPort o)).getLen = some (.value (BitVec.ofNat 64 m.data.length), .memStream m) := by
    rw [hm, Device.getLen, if_pos hseek]
  exact ⟨_, exec_of_commandRun_done (commandRun_rdLen_value hatt hlen)⟩

/-- R31, R161: a reader is at or behind the end exactly when it is at a boundary and its device is: inside a byte that
byte is one of the device's. -/
theorem atEnd_iff {u : BitUnit} (hatt : u.att = true) (hlook : LookaheadOk u (.memStream m)) (hpos : m.pos < 2 ^ 61)
    (hlen : m.data.length < 2 ^ 61) :
    (u.cur = 8 ∧ m.data.length ≤ m.pos) ↔
      (BitVec.ofNat 64 (8 * (BitVec.ofNat 64 m.data.length).toNat)).toNat ≤
        (BitVec.ofInt 64 (8 * ((BitVec.ofNat 64 m.pos).toNat : Int) + u.cur.val - 8)).toNat := by
  have hcur := u.cur.isLt
  simp only [Fin.ext_iff, BitVec.toNat_ofNat, BitVec.toNat_ofInt]
  change (u.cur.val = 8 ∧ _) ↔ _
  obtain hlt | heq : u.cur.val < 8 ∨ u.cur.val = 8 := by omega
  · obtain ⟨hpos0, hbyte⟩ := hlook hatt hlt
    have hinside : m.pos - 1 < m.data.length := (List.getElem?_eq_some_iff.mp hbyte).1
    omega
  · omega

end End

/-- Settles O43, from the three results. -/
theorem eosExactlyAtTheEnd : Obligations.EosExactlyAtTheEnd := by
  intro o s m hatt hm hopen hseek hlook hpos hlen
  obtain ⟨e, he⟩ := exec_rdEos_memStream hatt hm hopen
  obtain ⟨g, hg⟩ := exec_rdGetpos_memStream hatt hm hseek
  obtain ⟨l, hl⟩ := exec_rdLen_memStream hatt hm hseek
  refine ⟨_, _, _, he, hg, hl, succeed_status .., succeed_status .., succeed_status .., ?_, ?_⟩
  · rw [succeed_some_res, succeed_some_res, succeed_some_res, ← atEnd_iff hatt hlook hpos hlen]
    split
    case isTrue hend => exact iff_of_true rfl hend
    case isFalse hend => exact iff_of_false (by decide) hend
  · rw [succeed_some_res]
    exact ite_eq_or_eq ..

end Sys2Proof.Machine

/-! # The bit-stream writers (spec/42_bitwriter.md)

Past its checks a writing command is a list of bits written one after another. Three facts about that list settle the
unit: where it ends when the sink refuses one of its bytes, that it does not see the operands or what the end of the
command before it left, and, from those, that commands given one after another write the concatenation of their lists.
A sequence of commands on an empty sink is then one list, whose bytes and padding are known. A reader is followed from
the other side, by the bits it has still to give. -/

namespace Sys2Proof.Machine

/-! ### One bit (R181, R184, R193) -/

section Open

variable {o : BitOrder} {s : State} {v : Bool} {a : SnkAnswer} {e : ErrorKind} {d : Device}

/-- R181: the eighth bit makes the byte full. -/
theorem BitUnit.withBit_of_seven (o : BitOrder) (v : Bool) {u : BitUnit} (h : u.cur.val = 7) :
    u.withBit o v = { att := u.att, buf := (u.withBit o v).buf, cur := 8 } := by
  obtain ⟨att, buf, cur⟩ := u
  obtain rfl : cur = 7 := Fin.ext h
  rfl

/-- R181: the bit that fills the byte is put, and the byte emitted. -/
theorem writeBit_eq_emit (h : (s.writer o).cur.val = 7) :
    writeBit o v s = emit o (s.setWriter o ((s.writer o).withBit o v)) := by
  have hcur : (s.writer o).cur = 7 := Fin.ext h
  have hne : (s.writer o).cur ≠ 8 := by rw [hcur]; decide
  have hfull : (s.writer o).cur + 1 = 8 := by rw [hcur]; decide
  rw [writeBit_inside hne, placeBit_full hfull, BitUnit.withBit_of_seven o v h]
  rfl

/-- R201: a byte the sink refuses stays buffered whole. -/
theorem writeBit_of_refused (h : (s.writer o).cur.val = 7)
    (hd : (s.port (writePort o)).snkWrite ((s.writer o).withBit o v).buf = some (a, d)) (he : a.error? = some e) :
    writeBit o v s = .raised e ((s.setPort (writePort o) d).setWriter o ((s.writer o).withBit o v)) := by
  rw [writeBit_eq_emit h, emit_error (by rwa [port_setWriter, writer_setWriter_same]) he, setPort_setWriter]

theorem writeBit_of_silent (h : (s.writer o).cur.val = 7)
    (hd : (s.port (writePort o)).snkWrite ((s.writer o).withBit o v).buf = none) :
    writeBit o v s = .stuck (.portSilent (writePort o)) := by
  rw [writeBit_eq_emit h, emit_silent (by rwa [port_setWriter, writer_setWriter_same])]

/-- R184, R193: past the gate `BIT` writes one bit. -/
theorem commandRun_wrBit_open (hatt : (s.writer o).att = true) :
    commandRun (wrBit o) s = (writeBit o (s.arg0.getLsbD 0) s).bind fun _ t => .done none t := by
  rw [commandRun_wrBit, writerBit, gate_bind_open hatt]
  rfl

/-- R181: a byte that agrees with the buffered one except for the bit at the cursor is the byte with that bit put. -/
theorem withBit_buf_eq {u : BitUnit} {b : Byte} (hcur : u.cur.val < 8)
    (hb : ∀ j, j < 8 → b.getLsbD j = if j = bitPlace o u.cur.val then v else u.buf.getLsbD j) :
    (u.withBit o v).buf = b := by
  refine eq_of_streamBit_eq o fun k hk => ?_
  have hbit : streamBit o b k = _ := hb (bitPlace o k) (bitPlace_lt o hk)
  rw [hbit]
  by_cases hplace : k = u.cur.val
  · rw [if_pos (congrArg (bitPlace o) hplace), hplace]
    exact streamBit_putStreamBit_same o u.buf v hcur
  · rw [if_neg (bitPlace_ne o hk hcur hplace)]
    exact streamBit_putStreamBit_other o u.buf v hcur hk (Ne.symm hplace)

end Open

/-- Settles O45, by the place of the bit in the byte and each answer of the sink to a full byte. -/
theorem writerBitCommand : Obligations.WriterBitCommand := by
  refine ⟨rfl, rfl, fun o s b hatt hb => ?_⟩
  have hb' : ∀ j, j < 8 → b.getLsbD j =
      if j = bitPlace o (s.writer o).cur.val then s.arg0.getLsbD 0 else (s.writer o).buf.getLsbD j := by
    cases o <;> exact hb
  refine ⟨fun hcur => ?room, fun hcur => ?full⟩
  case room =>
    have hbuf := withBit_buf_eq (hcur.trans (by decide)) hb'
    have hrun : commandRun (wrBit o) s =
        .done none (s.setWriter o { s.writer o with buf := b, cur := (s.writer o).cur + 1 }) := by
      rw [commandRun_wrBit_open hatt, writeBit_of_room (Nat.succ_lt_succ hcur), Run.bind_done, ← hbuf]
      rfl
    exact exec_of_commandRun_done hrun
  case full =>
    have hbuf := withBit_buf_eq (hcur.trans_lt (by decide)) hb'
    rw [← hbuf]
    refine ⟨fun d hd => ?_, fun a e d hd he => ?_, fun hd => ?_⟩
    · exact exec_of_commandRun_done (by rw [commandRun_wrBit_open hatt, writeBit_of_full hcur hd, Run.bind_done])
    · refine exec_of_commandRun_raised ?_
      rw [commandRun_wrBit_open hatt, writeBit_of_refused hcur hd he, Run.bind_raised,
        ← BitUnit.withBit_of_seven o _ hcur]
    · exact exec_of_commandRun_stuck (by rw [commandRun_wrBit_open hatt, writeBit_of_silent hcur hd, Run.bind_stuck])

/-! ### The position, the length and the flush (R188 to R190) -/

section Open

variable {o : BitOrder} {s : State} {d : Device}

/-- R188, R189: the position, computed mod 2^64, is that of the natural numbers. -/
theorem writerBitPos_eq_ofNat (u : BitUnit) (v : Word64) :
    writerBitPos u v = BitVec.ofNat 64 (8 * v.toNat + u.cur.val) := by
  rw [writerBitPos, BitVec.ofNat_add, BitVec.ofNat_mul, BitVec.ofNat_toNat, BitVec.setWidth_eq]

/-- R188, R197. -/
theorem commandRun_wrGetpos_value {v : Word64} (hatt : (s.writer o).att = true)
    (h : (s.port (writePort o)).getPos = some (.value v, d)) :
    commandRun (wrGetpos o) s =
      .done (some (BitVec.ofNat 64 (8 * v.toNat + (s.writer o).cur.val))) (s.setPort (writePort o) d) := by
  rw [commandRun_wrGetpos, writerGetpos, gate_bind_open hatt, getPos_eq_done.mpr ⟨d, h, rfl⟩, Run.bind_done,
    writer_setPort, writerBitPos_eq_ofNat]

/-- R189, R198. -/
theorem commandRun_wrLen_value {v : Word64} (hatt : (s.writer o).att = true)
    (h : (s.port (writePort o)).getLen = some (.value v, d)) :
    commandRun (wrLen o) s =
      .done (some (BitVec.ofNat 64 (8 * v.toNat + (s.writer o).cur.val))) (s.setPort (writePort o) d) := by
  rw [commandRun_wrLen, writerLen, gate_bind_open hatt, getLen_eq_done.mpr ⟨d, h, rfl⟩, Run.bind_done,
    writer_setPort, writerBitPos_eq_ofNat]

/-- R261. -/
theorem commandRun_wrGetpos_notSeekable (hatt : (s.writer o).att = true)
    (h : (s.port (writePort o)).getPos = some (.notSeekable, d)) :
    commandRun (wrGetpos o) s = .raised .notSupported (s.setPort (writePort o) d) := by
  rw [commandRun_wrGetpos, writerGetpos, gate_bind_open hatt, getPos_eq_raised.mpr ⟨rfl, d, h, rfl⟩, Run.bind_raised]

/-- R261. -/
theorem commandRun_wrLen_notSeekable (hatt : (s.writer o).att = true)
    (h : (s.port (writePort o)).getLen = some (.notSeekable, d)) :
    commandRun (wrLen o) s = .raised .notSupported (s.setPort (writePort o) d) := by
  rw [commandRun_wrLen, writerLen, gate_bind_open hatt, getLen_eq_raised.mpr ⟨rfl, d, h, rfl⟩, Run.bind_raised]

/-- R190, R199: past the gate `FLUSH` is the release. -/
theorem commandRun_wrFlush_open (hatt : (s.writer o).att = true) :
    commandRun (wrFlush o) s = (release o s).bind fun _ t => .done none t := by
  rw [commandRun_wrFlush, writerFlush, gate_bind_open hatt]

/-- R190: `FLUSH` at a boundary makes no transaction. -/
theorem exec_wrFlush_boundary (hatt : (s.writer o).att = true) (h : (s.writer o).cur = 0) :
    exec (wrFlush o) s = .next (succeed none (s.setWriter o { s.writer o with att := false })) :=
  exec_of_commandRun_done (by rw [commandRun_wrFlush_open hatt, release_boundary h, Run.bind_done])

/-- R190: the pending byte taken. -/
theorem exec_wrFlush_ok (hatt : (s.writer o).att = true) (h : (s.writer o).cur ≠ 0)
    (hd : (s.port (writePort o)).snkWrite (s.writer o).buf = some (.ok, d)) :
    exec (wrFlush o) s =
      .next (succeed none ((s.setPort (writePort o) d).setWriter o { att := false, buf := 0, cur := 0 })) :=
  exec_of_commandRun_done (by rw [commandRun_wrFlush_open hatt, release_ok h hd, Run.bind_done])

end Open

/-- Settles O49, from the four answers. -/
theorem writerGetposLen : Obligations.WriterGetposLen :=
  ⟨rfl, rfl, rfl, rfl, fun _ _ hatt =>
    ⟨fun _ _ h => exec_of_commandRun_done (commandRun_wrGetpos_value hatt h),
      fun _ h => exec_of_commandRun_raised (commandRun_wrGetpos_notSeekable hatt h),
      fun _ _ h => exec_of_commandRun_done (commandRun_wrLen_value hatt h),
      fun _ h => exec_of_commandRun_raised (commandRun_wrLen_notSeekable hatt h)⟩⟩

/-- Settles O50: the release at a boundary and for each answer of the sink. -/
theorem writerFlushCommand : Obligations.WriterFlushCommand := by
  refine ⟨rfl, rfl, fun o s hatt =>
    ⟨fun hcur => exec_wrFlush_boundary hatt (Fin.ext hcur), fun hcur => ?pending⟩⟩
  case pending =>
    have hne : (s.writer o).cur ≠ 0 := Fin.pos_iff_ne_zero.mp hcur
    refine ⟨fun d hd => exec_wrFlush_ok hatt hne hd, fun a e d hd he => exec_of_commandRun_raised ?_,
      fun hd => exec_of_commandRun_stuck ?_⟩
    · rw [commandRun_wrFlush_open hatt, release_error hne hd he, Run.bind_raised]
    · rw [commandRun_wrFlush_open hatt, release_silent hne hd, Run.bind_stuck]

/-! ### A list of bits (R185 to R187, R204) -/

/-- R181: the pseudocode of a writing command past its checks. -/
def writesBits (o : BitOrder) (bits : List Bool) (s : State) : Run (Option Word64) :=
  (writeBits o bits s).bind fun _ t => .done none t

theorem writesBits_singleton (o : BitOrder) (b : Bool) (s : State) :
    writesBits o [b] s = (writeBit o b s).bind fun _ t => .done none t := by
  rw [writesBits, writeBits, Run.bind_assoc]
  rfl

theorem writeBits_append (o : BitOrder) (bits rest : List Bool) (s : State) :
    writeBits o (bits ++ rest) s = (writeBits o bits s).bind fun _ t => writeBits o rest t := by
  induction bits generalizing s with
  | nil => rfl
  | cons b bits ih => simp only [List.cons_append, writeBits, Run.bind_assoc, ih]

section Counted

variable {o : BitOrder} {n : Nat} {s : State}

/-- R94: past the gate and the check of a legal count. -/
theorem writerCounted_eq {limit : Nat} (w : Nat → State → Run Unit) (hatt : (s.writer o).att = true)
    (hn : s.arg1.toInt = n) (hle : n ≤ limit) :
    ((gate (s.writer o) s).bind fun _ s1 => (countOperand limit s1).bind fun n s2 =>
      (w n s2).bind fun _ s3 => .done (none : Option Word64) s3) = (w n s).bind fun _ t => .done none t := by
  have hcount : countOperand limit s = .done n s := countOperand_eq_done.mpr ⟨hn, hle, rfl⟩
  rw [gate_bind_open hatt, hcount, Run.bind_done]

theorem commandRun_wrBits32_open (hatt : (s.writer o).att = true) (hn : s.arg1.toInt = n) (hle : n ≤ 31) :
    commandRun (wrBits32 o) s = writesBits o (fieldBits s.arg0 n) s := by
  have hrun := writerCounted_eq (fun n u => writeField o (zext64 (arg0Low32 u)) n u) hatt hn hle
  rw [writeField_eq_writeBits, fieldBits_arg0Low32 s (hle.trans (by decide))] at hrun
  exact (congrFun (commandRun_wrBits32 o) s).trans hrun

theorem commandRun_wrBits64_open (hatt : (s.writer o).att = true) (hn : s.arg1.toInt = n) (hle : n ≤ 63) :
    commandRun (wrBits64 o) s = writesBits o (fieldBits s.arg0 n) s := by
  have hrun := writerCounted_eq (fun n u => writeField o u.arg0 n u) hatt hn hle
  rw [writeField_eq_writeBits] at hrun
  exact (congrFun (commandRun_wrBits64 o) s).trans hrun

/-- R94: every count in `ARG1` that is not negative is legal. -/
theorem commandRun_wrRep_open (hatt : (s.writer o).att = true) (hn : s.arg1.toInt = n) :
    commandRun (wrRep o) s = writesBits o (List.replicate n (s.arg0.getLsbD 0)) s := by
  have hle : n ≤ repLimit := by
    have hlt := BitVec.two_mul_toInt_lt (x := s.arg1)
    rw [hn] at hlt
    unfold repLimit
    omega
  have hrun := writerCounted_eq (fun n u => writeRepeat o (arg0Bit u) n u) hatt hn hle
  rw [writeRepeat_eq_writeBits] at hrun
  exact (congrFun (commandRun_wrRep o) s).trans hrun

end Counted

/-- R201: bits written to a sink that refuses the `k`-th of the whole bytes they make with the pending ones: the bytes
before are pushed, and that byte stays whole in the record. -/
theorem writeBits_of_refused {o : BitOrder} {bits : List Bool} {s : State} {k : Nat} {b : Byte} {d d2 : Device}
    {a : SnkAnswer} {e : ErrorKind} (hatt : (s.writer o).att = true) (hok : WriterOk o (s.writer o))
    (hcur : (s.writer o).cur.val < 8) (hb : (wholeBytes o (pendingBits o (s.writer o) ++ bits))[k]? = some b)
    (h : pushBytes ((wholeBytes o (pendingBits o (s.writer o) ++ bits)).take k) (s.port (writePort o)) = some d)
    (hd : d.snkWrite b = some (a, d2)) (he : a.error? = some e) :
    writeBits o bits s =
      .raised e ((s.setPort (writePort o) d2).setWriter o { att := true, buf := b, cur := 8 }) := by
  induction bits generalizing s k with
  | nil =>
    rw [List.append_nil, wholeBytes_pendingBits hcur] at hb
    cases hb
  | cons v bits ih =>
    have hne : (s.writer o).cur ≠ 8 := Fin.ne_of_val_ne (Nat.ne_of_lt hcur)
    have hput := pendingBits_withBit o v hne
    rw [List.append_cons, ← hput] at hb h
    by_cases hroom : (s.writer o).cur.val + 1 < 8
    · have hwriter := writer_setWriter_same s o ((s.writer o).withBit o v)
      have hlt : ((s.writer o).withBit o v).cur.val < 8 := (Cursor.val_add_one hne).trans_lt hroom
      rw [writeBits, writeBit_of_room hroom, Run.bind_done, ih (by rwa [hwriter])
        (by rw [hwriter]; exact (writerStable_writerOk o).withBit _ v hatt hne hok) (by rwa [hwriter])
        (by rwa [hwriter]) (by rwa [hwriter, port_setWriter]), setPort_setWriter, setWriter_setWriter]
    · have hseven : (s.writer o).cur.val = 7 := by omega
      have hlength : (pendingBits o ((s.writer o).withBit o v)).length = 8 := by
        rw [pendingBits_length, BitUnit.withBit_of_seven o v hseven]
        rfl
      have hbyte : byteOfBits o (pendingBits o ((s.writer o).withBit o v)) = ((s.writer o).withBit o v).buf :=
        byteOfBits_pendingBits fun k hk hle => by rw [pendingBits_length] at hlength; omega
      rw [wholeBytes_append hlength, hbyte] at hb h
      cases k with
      | zero =>
        cases hb
        cases h
        rw [writeBits, writeBit_of_refused hseven hd he, Run.bind_raised, ← hatt,
          ← BitUnit.withBit_of_seven o v hseven]
      | succ k =>
        obtain ⟨d1, hd1, hrest⟩ := pushBytes_cons_eq_some h
        have hwriter := writer_setWriter_same (s.setPort (writePort o) d1) o { att := true, buf := 0, cur := 0 }
        have hpending : pendingBits o { att := true, buf := 0, cur := 0 } = [] := pendingBits_eq_map o _
        rw [writeBits, writeBit_of_full hseven hd1, Run.bind_done, hatt, ih (k := k) (by rw [hwriter])
          (by rw [hwriter]; exact writerOk_boundary o true) (by rw [hwriter]; decide)
          (by rwa [hwriter, hpending]) (by rwa [hwriter, hpending, port_setWriter, port_setPort_same]),
          setPort_setWriter, setWriter_setWriter, setPort_setPort]

/-- Settles O47: each of the three commands is a list of bits. -/
theorem writerBitsSinkFailure : Obligations.WriterBitsSinkFailure := by
  intro o s n k bits b d d2 a e u all sent hatt hok hcur hn hb h hd he t
  have hrun : writesBits o bits s =
      .raised e ((s.setPort (writePort o) d2).setWriter o { att := true, buf := b, cur := 8 }) := by
    rw [writesBits, writeBits_of_refused hatt hok hcur hb h hd he, Run.bind_raised]
  refine ⟨fun hle hbits => ?_, fun hle hbits => ?_, fun hbits => ?_⟩
  all_goals rw [hbits] at hrun
  · exact exec_of_commandRun_raised ((commandRun_wrBits32_open hatt hn hle).trans hrun)
  · exact exec_of_commandRun_raised ((commandRun_wrBits64_open hatt hn hle).trans hrun)
  · exact exec_of_commandRun_raised ((commandRun_wrRep_open hatt hn).trans hrun)

/-! ### What the writing of bits does not see -/

/-- A change of the state that the writing of bits neither sees nor undoes: it keeps the writer's port and record, and
commutes with their updates. -/
structure UnseenByWriter (o : BitOrder) (f : State → State) : Prop where
  port : ∀ s, (f s).port (writePort o) = s.port (writePort o)
  writer : ∀ s, (f s).writer o = s.writer o
  setPort : ∀ s d, (f s).setPort (writePort o) d = f (s.setPort (writePort o) d)
  setWriter : ∀ s u, (f s).setWriter o u = f (s.setWriter o u)

theorem UnseenByWriter.comp {o : BitOrder} {f g : State → State} (hf : UnseenByWriter o f) (hg : UnseenByWriter o g) :
    UnseenByWriter o (f ∘ g) where
  port s := (hf.port _).trans (hg.port s)
  writer s := (hf.writer _).trans (hg.writer s)
  setPort s d := (hf.setPort _ d).trans (congrArg f (hg.setPort s d))
  setWriter s u := (hf.setWriter _ u).trans (congrArg f (hg.setWriter s u))

theorem unseenByWriter_succeed (o : BitOrder) (v : Option Word64) : UnseenByWriter o (succeed v) where
  port s := port_succeed v s _
  writer s := writer_succeed v s o
  setPort s d := (succeed_setPort v s _ d).symm
  setWriter s u := (succeed_setWriter v s o u).symm

theorem unseenByWriter_arg0 (o : BitOrder) (a : Word64) : UnseenByWriter o fun s => { s with arg0 := a } := by
  cases o <;> exact ⟨fun _ => rfl, fun _ => rfl, fun _ _ => rfl, fun _ _ => rfl⟩

theorem unseenByWriter_arg1 (o : BitOrder) (a : Word32) : UnseenByWriter o fun s => { s with arg1 := a } := by
  cases o <;> exact ⟨fun _ => rfl, fun _ => rfl, fun _ _ => rfl, fun _ _ => rfl⟩

section Unseen

variable {o : BitOrder} {f : State → State}

theorem emit_unseen (hf : UnseenByWriter o f) (s : State) : emit o (f s) = (emit o s).map f := by
  have hask : ((f s).port (writePort o)).snkWrite ((f s).writer o).buf =
      (s.port (writePort o)).snkWrite (s.writer o).buf := by rw [hf.port, hf.writer]
  rcases hd : (s.port (writePort o)).snkWrite (s.writer o).buf with _ | ⟨_ | _ | _, d⟩
  · rw [emit_silent hd, emit_silent (hask.trans hd)]
    rfl
  · rw [emit_ok hd, emit_ok (hask.trans hd), hf.writer, hf.setPort, hf.setWriter]
    rfl
  all_goals
    rw [emit_error hd rfl, emit_error (hask.trans hd) rfl, hf.setPort]
    rfl

theorem placeBit_unseen (hf : UnseenByWriter o f) (v : Bool) (s : State) :
    placeBit o v (f s) = (placeBit o v s).map f := by
  by_cases hcur : (s.writer o).cur + 1 = 8
  · rw [placeBit_full hcur, placeBit_full (by rwa [hf.writer]), hf.writer, hf.setWriter, emit_unseen hf]
  · rw [placeBit_inside hcur, placeBit_inside (by rwa [hf.writer]), hf.writer, hf.setWriter]
    rfl

theorem writeBit_unseen (hf : UnseenByWriter o f) (v : Bool) (s : State) :
    writeBit o v (f s) = (writeBit o v s).map f := by
  by_cases hcur : (s.writer o).cur = 8
  · rw [writeBit_retry hcur, writeBit_retry (by rwa [hf.writer]), emit_unseen hf]
    cases emit o s with
    | done a t => exact placeBit_unseen hf v t
    | raised e t => rfl
    | stuck x => rfl
  · rw [writeBit_inside hcur, writeBit_inside (by rwa [hf.writer]), placeBit_unseen hf]

theorem writeBits_unseen (hf : UnseenByWriter o f) (bits : List Bool) (s : State) :
    writeBits o bits (f s) = (writeBits o bits s).map f := by
  induction bits generalizing s with
  | nil => rfl
  | cons b bits ih =>
    rw [writeBits, writeBits, writeBit_unseen hf]
    cases writeBit o b s with
    | done a t => exact ih t
    | raised e t => rfl
    | stuck x => rfl

end Unseen

/-! ### Bit by bit (R204) -/

section BitByBit

variable {o : BitOrder} {s t : State}

/-- R103: the end of a writing command overwrites what the end of the command before it left. -/
theorem finish_writesBits_succeed (bits : List Bool) (s : State) :
    finish (writesBits o bits (succeed none s)) = finish (writesBits o bits s) := by
  rw [writesBits, writeBits_unseen (unseenByWriter_succeed o none), writesBits]
  cases writeBits o bits s <;> rfl

theorem unit_wrBit (o : BitOrder) : (wrBit o).unit = writerUnit o := by cases o <;> rfl

/-- R93: the bit operand that holds a bit. -/
theorem getLsbD_zero_bitOperand (b : Bool) : (if b then 1 else 0 : Word64).getLsbD 0 = b := by cases b <;> rfl

/-- R184: `BIT` with the bit in its operand. -/
theorem exec_wrBit_arg0 (b : Bool) (hatt : (s.writer o).att = true) :
    exec (wrBit o) { s with arg0 := if b then 1 else 0 } =
      finish (((writeBit o b s).map fun t => { t with arg0 := if b then 1 else 0 }).bind fun _ t => .done none t) := by
  have hf := unseenByWriter_arg0 o (if b then 1 else 0)
  rw [exec_eq_finish, commandRun_wrBit_open ((congrArg BitUnit.att (hf.writer s)).trans hatt),
    getLsbD_zero_bitOperand, writeBit_unseen hf b s]

theorem writeBit_endsIn_arg0 (o : BitOrder) (b : Bool) (s : State) :
    (writeBit o b s).EndsIn fun t => t.arg0 = s.arg0 :=
  ((confined_writeBit (unit_wrBit o) b).keeps s).imp fun _ hk => hk.arg0

/-- R281: writing a bit neither opens nor releases the writer. -/
theorem writeBit_keeps_att {b : Bool} {a : Unit} (hatt : (s.writer o).att = true) (h : writeBit o b s = .done a t) :
    (t.writer o).att = true :=
  ((writeBit_meets (writerStable_att o true) b ⟨hatt, hatt⟩).1 a t h).1

/-- R204: a `BIT` that succeeds leaves the writing of its bit, `ARG0` put back. -/
theorem bitByBitWrite_cons_done {b : Bool} {a : Unit} (bits : List Bool) (hatt : (s.writer o).att = true)
    (h : writeBit o b s = .done a t) : bitByBitWrite o (b :: bits) s = bitByBitWrite o bits (succeed none t) := by
  have hexec := exec_wrBit_arg0 b hatt
  have harg0 := writeBit_endsIn_arg0 o b s
  rw [h] at hexec harg0
  calc bitByBitWrite o (b :: bits) s = bitByBitWrite o bits (succeed none { t with arg0 := s.arg0 }) := by
        rw [bitByBitWrite, hexec]
        exact if_pos rfl
    _ = bitByBitWrite o bits (succeed none t) :=
        congrArg (fun v => bitByBitWrite o bits (succeed none { t with arg0 := v })) harg0.symm

theorem bitByBitWrite_cons_raised {b : Bool} {e : ErrorKind} (bits : List Bool) (hatt : (s.writer o).att = true)
    (h : writeBit o b s = .raised e t) : bitByBitWrite o (b :: bits) s = .next (raiseError e t) := by
  have hexec := exec_wrBit_arg0 b hatt
  have harg0 := writeBit_endsIn_arg0 o b s
  rw [h] at hexec harg0
  calc bitByBitWrite o (b :: bits) s = .next (raiseError e { t with arg0 := s.arg0 }) := by
        rw [bitByBitWrite, hexec]
        exact if_neg (errorCode_ne_zero e)
    _ = .next (raiseError e t) :=
        congrArg (fun v => Host.Outcome.next (raiseError e { t with arg0 := v })) harg0.symm

theorem bitByBitWrite_cons_stuck {b : Bool} {f : Fault} (bits : List Bool) (hatt : (s.writer o).att = true)
    (h : writeBit o b s = .stuck f) : bitByBitWrite o (b :: bits) s = .fault f := by
  rw [bitByBitWrite, exec_wrBit_arg0 b hatt, h]
  rfl

/-- R204: a list of bits is written as by one `BIT` command for each. -/
theorem finish_writesBits_eq_bitByBitWrite (bits : List Bool) (hatt : (s.writer o).att = true) :
    finish (writesBits o bits s) = bitByBitWrite o bits s := by
  induction bits generalizing s with
  | nil => rfl
  | cons b bits ih =>
    cases h : writeBit o b s with
    | done a t =>
      have hatt' : ((succeed none t).writer o).att = true := by
        rw [writer_succeed]
        exact writeBit_keeps_att hatt h
      rw [bitByBitWrite_cons_done bits hatt h, ← ih hatt', finish_writesBits_succeed, writesBits, writeBits, h]
      rfl
    | raised e t =>
      rw [bitByBitWrite_cons_raised bits hatt h, writesBits, writeBits, h]
      rfl
    | stuck x =>
      rw [bitByBitWrite_cons_stuck bits hatt h, writesBits, writeBits, h]
      rfl

end BitByBit

/-- Settles O48: each of the three commands is a list of bits. -/
theorem writerBitsAreBitByBit : Obligations.WriterBitsAreBitByBit := by
  refine fun o s n hatt hn => ⟨fun hle => ?_, fun hle => ?_, ?_⟩
  all_goals rw [exec_eq_finish, ← finish_writesBits_eq_bitByBitWrite _ hatt]
  · rw [commandRun_wrBits32_open hatt hn hle]
  · rw [commandRun_wrBits64_open hatt hn hle]
  · rw [commandRun_wrRep_open hatt hn]

/-! ### Sequences of writing commands (R202) -/

/-- R202: the state with the operands of a writing command. -/
def WriteCmd.load : WriteCmd → State → State
  | .bit b => fun s => { s with arg0 := if b then 1 else 0 }
  | .bits32 f n => fun s => { s with arg0 := f, arg1 := BitVec.ofNat 32 n.val }
  | .bits64 f n => fun s => { s with arg0 := f, arg1 := BitVec.ofNat 32 n.val }
  | .rep b n => fun s => { s with arg0 := if b then 1 else 0, arg1 := BitVec.ofNat 32 n.val }

theorem unseenByWriter_load (o : BitOrder) (c : WriteCmd) : UnseenByWriter o c.load := by
  cases c with
  | bit b => exact unseenByWriter_arg0 o _
  | bits32 f n => exact (unseenByWriter_arg1 o _).comp (unseenByWriter_arg0 o f)
  | bits64 f n => exact (unseenByWriter_arg1 o _).comp (unseenByWriter_arg0 o f)
  | rep b n => exact (unseenByWriter_arg1 o _).comp (unseenByWriter_arg0 o _)

/-- R94: a count below 2^31 is what `ARG1` says as a signed number. -/
theorem toInt_ofNat_count {n : Nat} (h : n < 2 ^ 31) : (BitVec.ofNat 32 n).toInt = n := by
  have hlt : (BitVec.ofNat 32 n).toNat = n := by
    rw [BitVec.toNat_ofNat, Nat.mod_eq_of_lt (h.trans (by decide))]
  rw [BitVec.toInt_eq_toNat_of_lt (by rw [hlt]; omega), hlt]

section Sequence

variable {o : BitOrder} {s t : State}

/-- R202: a writing command is the writing of its bits. -/
theorem WriteCmd.issue_eq_finish (c : WriteCmd) (hatt : (s.writer o).att = true) :
    c.issue o s = finish (writesBits o c.bits (c.load s)) := by
  have hload : ((c.load s).writer o).att = true := by rwa [(unseenByWriter_load o c).writer]
  cases c with
  | bit b =>
    have hrun := commandRun_wrBit_open hload
    rw [WriteCmd.load, getLsbD_zero_bitOperand, ← writesBits_singleton] at hrun
    exact (exec_eq_finish _ _).trans (congrArg finish hrun)
  | bits32 f n =>
    exact (exec_eq_finish _ _).trans
      (congrArg finish (commandRun_wrBits32_open hload (toInt_ofNat_count (by omega)) (by omega)))
  | bits64 f n =>
    exact (exec_eq_finish _ _).trans
      (congrArg finish (commandRun_wrBits64_open hload (toInt_ofNat_count (by omega)) (by omega)))
  | rep b n =>
    have hrun := commandRun_wrRep_open hload (toInt_ofNat_count n.isLt)
    rw [WriteCmd.load, getLsbD_zero_bitOperand] at hrun
    exact (exec_eq_finish _ _).trans (congrArg finish hrun)

/-- R202: a writing command whose bits are written completes, and the writing goes on as if it had not seen it. -/
theorem WriteCmd.issue_of_writeBits {c : WriteCmd} (hatt : (s.writer o).att = true)
    (h : writeBits o c.bits s = .done () t) : c.issue o s = .next (succeed none (c.load t)) := by
  rw [c.issue_eq_finish hatt, writesBits, writeBits_unseen (unseenByWriter_load o c), h]
  rfl

theorem writeBits_keeps_att {bits : List Bool} (hatt : (s.writer o).att = true)
    (h : writeBits o bits s = .done () t) : (t.writer o).att = true := by
  induction bits generalizing s with
  | nil =>
    cases h
    exact hatt
  | cons b bits ih =>
    obtain ⟨a, u, hbit, hrest⟩ := Run.bind_eq_done.mp h
    exact ih (writeBit_keeps_att hatt hbit) hrest

/-- R202: commands given one after another write the concatenation of their bits. -/
theorem writeAll_of_writeBits (cs : List WriteCmd) (hatt : (s.writer o).att = true)
    (h : writeBits o (cs.flatMap WriteCmd.bits) s = .done () t) :
    ∃ u, writeAll o cs s = some u ∧ u.writer o = t.writer o ∧ u.port (writePort o) = t.port (writePort o) := by
  induction cs generalizing s t with
  | nil =>
    cases h
    exact ⟨s, rfl, rfl, rfl⟩
  | cons c cs ih =>
    rw [List.flatMap_cons, writeBits_append] at h
    obtain ⟨_, r, hc, hcs⟩ := Run.bind_eq_done.mp h
    have hend : UnseenByWriter o fun r => succeed none (c.load r) :=
      (unseenByWriter_succeed o none).comp (unseenByWriter_load o c)
    have hrest : writeBits o (cs.flatMap WriteCmd.bits) (succeed none (c.load r)) =
        .done () (succeed none (c.load t)) := by
      rw [writeBits_unseen hend, hcs]
      rfl
    have hatt' := (congrArg BitUnit.att (hend.writer r)).trans (writeBits_keeps_att hatt hc)
    obtain ⟨u, hu, hwriter, hport⟩ := ih hatt' hrest
    refine ⟨u, ?_, hwriter.trans (hend.writer t), hport.trans (hend.port t)⟩
    rw [writeAll, WriteCmd.issue_of_writeBits hatt hc]
    exact (if_pos (succeed_status ..)).trans hu

end Sequence

/-! ### The bytes of a flushed list of bits (R182, R202) -/

/-- R182, R202: the bytes of a list of bits, the last one filled up with zeros. -/
def paddedBytes (o : BitOrder) (l : List Bool) : List Byte := packBytes o ((l.length + 7) / 8) l

theorem packBytes_length (o : BitOrder) (m : Nat) (l : List Bool) : (packBytes o m l).length = m := by
  induction m generalizing l with
  | zero => rfl
  | succ m ih => rw [packBytes, List.length_cons, ih]

/-- A byte more is the byte of the eight bits behind the others. -/
theorem packBytes_succ (o : BitOrder) (m : Nat) (l : List Bool) :
    packBytes o (m + 1) l = packBytes o m l ++ [byteOfBits o ((l.drop (8 * m)).take 8)] := by
  induction m generalizing l with
  | zero => rfl
  | succ m ih =>
    rw [packBytes, ih, packBytes, List.cons_append, List.drop_drop, Nat.mul_succ, Nat.add_comm (8 * m)]

theorem paddedBytes_of_boundary (o : BitOrder) {l : List Bool} (h : l.length % 8 = 0) :
    paddedBytes o l = wholeBytes o l := by
  have hcount : (l.length + 7) / 8 = l.length / 8 := by omega
  rw [paddedBytes, hcount, wholeBytes]

/-- R182: with bits pending, the flushed byte is the one in the record. -/
theorem paddedBytes_of_pending (o : BitOrder) {l : List Bool} (h : l.length % 8 ≠ 0) :
    paddedBytes o l = wholeBytes o l ++ [(packedRecord o l).buf] := by
  have hcount : (l.length + 7) / 8 = l.length / 8 + 1 := by omega
  have hrest : (l.drop (8 * (l.length / 8))).length ≤ 8 := by
    rw [List.length_drop]
    omega
  rw [paddedBytes, hcount, packBytes_succ, List.take_of_length_le hrest, wholeBytes, packedRecord]

/-- A list read beyond its end as zeros is the list with zeros behind it. -/
theorem map_range_getD_false {l : List Bool} {n : Nat} (h : l.length ≤ n) :
    ((List.range n).map fun k => l.getD k false) = l ++ List.replicate (n - l.length) false := by
  refine List.ext_getElem ?_ fun k hk _ => ?_
  · rw [List.length_map, List.length_range, List.length_append, List.length_replicate]
    omega
  · rw [List.getElem_map, List.getElem_range, List.getElem_append]
    by_cases hin : k < l.length
    · rw [dif_pos hin, List.getD_eq_getElem _ _ hin]
    · rw [dif_neg hin, List.getElem_replicate, List.getD_eq_default _ _ (Nat.le_of_not_lt hin)]

@[simp] theorem bitsOfBytes_length (o : BitOrder) (bs : List Byte) : (bitsOfBytes o bs).length = 8 * bs.length := by
  induction bs with
  | nil => rfl
  | cons b bs ih =>
    have hcons : bitsOfBytes o (b :: bs) = bitsOfByte o b ++ bitsOfBytes o bs := rfl
    rw [hcons, List.length_append, bitsOfByte_length, ih, List.length_cons, Nat.mul_succ, Nat.add_comm]

/-- R65, R181: the bits of packed bytes are the bits packed, zeros behind them. -/
theorem bitsOfBytes_packBytes (o : BitOrder) (m : Nat) (l : List Bool) :
    bitsOfBytes o (packBytes o m l) = (List.range (8 * m)).map fun k => l.getD k false := by
  induction m generalizing l with
  | zero => rfl
  | succ m ih =>
    have hfirst : bitsOfByte o (byteOfBits o (l.take 8)) = (List.range 8).map fun k => l.getD k false := by
      rw [bitsOfByte_eq_map]
      refine List.map_congr_left fun k hk => ?_
      have hlt := List.mem_range.mp hk
      rw [streamBit_byteOfBits o _ hlt, List.getD_eq_getElem?_getD, List.getElem?_take_of_lt hlt,
        ← List.getD_eq_getElem?_getD]
    have hrest : (fun k => (l.drop 8).getD k false) = (fun k => l.getD k false) ∘ (8 + ·) := by
      funext k
      simp [List.getD_eq_getElem?_getD]
    have hcons : bitsOfBytes o (packBytes o (m + 1) l) =
        bitsOfByte o (byteOfBits o (l.take 8)) ++ bitsOfBytes o (packBytes o m (l.drop 8)) := rfl
    rw [hcons, hfirst, ih, hrest, ← List.map_map, ← List.map_append, ← List.range_add, Nat.mul_succ, Nat.add_comm]

/-- R202: the padding is zeros. -/
theorem bitsOfBytes_paddedBytes (o : BitOrder) (l : List Bool) :
    bitsOfBytes o (paddedBytes o l) = l ++ List.replicate (8 * (paddedBytes o l).length - l.length) false := by
  rw [paddedBytes, packBytes_length, bitsOfBytes_packBytes, map_range_getD_false (by omega)]

/-- R202: commands given to a fresh writer on an empty sink succeed, and the flush after them leaves their bits there. -/
theorem writeAll_then_flush {o : BitOrder} (cs : List WriteCmd) {s : State} {sk : Bool}
    (hwriter : s.writer o = { att := true, buf := 0, cur := 0 }) (hport : s.port (writePort o) = streamOf [] sk) :
    ∃ t u, writeAll o cs s = some t ∧ exec (wrFlush o) t = .next u ∧ u.status = 0 ∧
      u.port (writePort o) = streamAt (paddedBytes o (cs.flatMap WriteCmd.bits))
        (paddedBytes o (cs.flatMap WriteCmd.bits)).length sk := by
  have hatt : (s.writer o).att = true := by rw [hwriter]
  have hpending : pendingBits o (s.writer o) = [] := by rw [hwriter]; exact pendingBits_eq_map o _
  have hpush := pushBytes_streamAt_end (wholeBytes o (cs.flatMap WriteCmd.bits)) [] sk
  rw [List.nil_append, List.length_nil, ← streamOf_eq_streamAt, ← hport] at hpush
  have hwrite := writeBits_of_pushBytes (cs.flatMap WriteCmd.bits) hatt (by rw [hwriter]; exact writerOk_boundary o true)
    (by rw [hwriter]; decide) (by rwa [hpending, List.nil_append])
  obtain ⟨t, hall, htwriter, htport⟩ := writeAll_of_writeBits cs hatt hwrite
  rw [writer_setWriter_same, hpending, List.nil_append] at htwriter
  rw [port_setWriter, port_setPort_same] at htport
  have htatt : (t.writer o).att = true := by rw [htwriter, packedRecord]
  have hcur : (t.writer o).cur.val = (cs.flatMap WriteCmd.bits).length % 8 := by
    rw [htwriter, packedRecord]
    exact Nat.mod_eq_of_lt (by omega)
  by_cases hzero : (cs.flatMap WriteCmd.bits).length % 8 = 0
  · refine ⟨t, _, hall, exec_wrFlush_boundary htatt (Fin.ext (hcur.trans hzero)), succeed_status .., ?_⟩
    rw [port_succeed, port_setWriter, htport, paddedBytes_of_boundary o hzero]
  · have hne : (t.writer o).cur ≠ 0 := Fin.ne_of_val_ne (hcur.trans_ne hzero)
    have hd := streamAt_snkWrite_end (wholeBytes o (cs.flatMap WriteCmd.bits)) (t.writer o).buf sk
    rw [← htport] at hd
    refine ⟨t, _, hall, exec_wrFlush_ok htatt hne hd, succeed_status .., ?_⟩
    rw [port_succeed, port_setWriter, port_setPort_same, paddedBytes_of_pending o hzero, htwriter, List.length_append,
      List.length_singleton]

/-! ### The two orderings (R203) -/

/-- R203: the same bits make bytes that are each other's reversals. -/
theorem byteOfBits_lsb (l : List Bool) : byteOfBits .lsb l = bitReverse (byteOfBits .msb l) := by
  refine eq_of_streamBit_eq .lsb fun k hk => ?_
  rw [bitReverse, streamBit_byteOfBits _ _ hk, streamBit_byteOfBits _ _ hk, bitsOfByte_eq_map]
  simp [List.getD_eq_getElem?_getD, hk, streamBit_byteOfBits]

theorem packBytes_lsb (m : Nat) (l : List Bool) : packBytes .lsb m l = (packBytes .msb m l).map bitReverse := by
  induction m generalizing l with
  | zero => rfl
  | succ m ih => rw [packBytes, packBytes, List.map_cons, byteOfBits_lsb, ih]

theorem paddedBytes_lsb (l : List Bool) : paddedBytes .lsb l = (paddedBytes .msb l).map bitReverse :=
  packBytes_lsb _ l

/-- R202: what a flushed sequence of commands leaves on a sink that was empty is the padded bytes of its bits. -/
theorem data_of_writeAll_flush {o : BitOrder} {cs : List WriteCmd} {s t u : State} {sk : Bool} {m : MemStream}
    (hwriter : s.writer o = { att := true, buf := 0, cur := 0 }) (hport : s.port (writePort o) = streamOf [] sk)
    (hall : writeAll o cs s = some t) (hflush : exec (wrFlush o) t = .next u)
    (hm : u.port (writePort o) = .memStream m) : m.data = paddedBytes o (cs.flatMap WriteCmd.bits) := by
  obtain ⟨t', u', hall', hflush', -, hport'⟩ := writeAll_then_flush cs hwriter hport
  obtain rfl : t' = t := Option.some.inj (hall'.symm.trans hall)
  obtain rfl : u' = u := Host.Outcome.next.inj (hflush'.symm.trans hflush)
  exact (congrArg MemStream.data (Device.memStream.inj (hport'.symm.trans hm))).symm

/-- Settles O54: both sinks hold the padded bytes of the same bits. -/
theorem crossOrderingReversesBytes : Obligations.CrossOrderingReversesBytes := by
  intro cm cl sm sl tm tl um ul skm skl dm dl hbits hsm hsl hpm hpl hallm halll hflushm hflushl hdm hdl
  have hm := data_of_writeAll_flush (o := .msb) hsm hpm hallm hflushm hdm
  have hl := data_of_writeAll_flush (o := .lsb) hsl hpl halll hflushl hdl
  have hreversed : dl.data = dm.data.map bitReverse := by rw [hl, hm, ← hbits, paddedBytes_lsb]
  refine ⟨hreversed, ?_⟩
  have hfixed := List.map_inj_left (l := dm.data) (f := bitReverse) (g := id)
  rw [List.map_id] at hfixed
  rw [hreversed, eq_comm]
  exact hfixed

/-! ### The bits a reader has still to give (R202) -/

/-- R31, R202: an open reader on an open reference device that has the bits `l` still to give. -/
def ReaderGives (o : BitOrder) (l : List Bool) (s : State) : Prop :=
  (s.reader o).att = true ∧ ∃ front tail sk, s.port (readPort o) = streamAt (front ++ tail) front.length sk ∧
    unreadBits o (s.reader o) ++ bitsOfBytes o tail = l

section Gives

variable {o : BitOrder} {l bits : List Bool} {s t : State}

theorem ReaderGives.of_eq (h : ReaderGives o l s) (hreader : t.reader o = s.reader o)
    (hport : t.port (readPort o) = s.port (readPort o)) : ReaderGives o l t := by
  rwa [ReaderGives, hreader, hport]

/-- R202: a fresh reader has the bits of its source to give. -/
theorem readerGives_fresh {data : List Byte} {sk : Bool} (hreader : s.reader o = { att := true, buf := 0, cur := 8 })
    (hport : s.port (readPort o) = streamOf data sk) : ReaderGives o (bitsOfBytes o data) s := by
  refine ⟨by rw [hreader], [], data, sk, hport, ?_⟩
  rw [hreader, unreadBits_boundary o rfl, List.nil_append]

/-- R141: the next bit, from the buffered byte or the next one of the source. -/
theorem readBit_of_gives {b : Bool} (h : ReaderGives o (b :: l) s) :
    ∃ t, readBit o s = .done b t ∧ ReaderGives o l t := by
  obtain ⟨hatt, front, tail, sk, hport, hbits⟩ := h
  by_cases hcur : (s.reader o).cur = 8
  · rw [unreadBits_boundary o hcur, List.nil_append] at hbits
    cases tail with
    | nil => cases hbits
    | cons c tail =>
      have hread := streamAt_srcRead front c tail sk
      rw [← hport] at hread
      have hcons : bitsOfBytes o (c :: tail) = bitsOfByte o c ++ bitsOfBytes o tail := rfl
      rw [hcons, bitsOfByte_eq_cons o (s.reader o).att c, List.cons_append] at hbits
      obtain ⟨rfl, hrest⟩ := List.cons.inj hbits
      refine ⟨_, readBit_boundary hcur hread, by rwa [reader_setReader_same], front ++ [c], tail, sk, ?_, ?_⟩
      · rw [port_setReader, port_setPort_same, List.append_assoc, List.length_append]
        rfl
      · rwa [reader_setReader_same]
  · rw [unreadBits_inside o hcur, List.cons_append] at hbits
    obtain ⟨rfl, hrest⟩ := List.cons.inj hbits
    refine ⟨_, readBit_inside hcur, by rwa [reader_setReader_same], front, tail, sk, ?_, ?_⟩
    · rwa [port_setReader]
    · rwa [reader_setReader_same]

theorem readBits_of_gives {w : Nat} (r : BitVec w) (h : ReaderGives o (bits ++ l) s) :
    ∃ t, readBits o bits.length r s = .done (bits.foldl shiftInBit r) t ∧ ReaderGives o l t := by
  induction bits generalizing r s with
  | nil => exact ⟨s, rfl, h⟩
  | cons b bits ih =>
    obtain ⟨u, hbit, hu⟩ := readBit_of_gives h
    obtain ⟨t, hbits, ht⟩ := ih (shiftInBit r b) hu
    refine ⟨t, ?_, ht⟩
    rw [List.length_cons, readBits_succ, hbit, Run.bind_done, hbits, List.foldl_cons]

/-- R145, R146: a `BITS` command returns the next bits, first bit highest. -/
theorem readerBits_of_gives {w : Nat} (h : ReaderGives o (bits ++ l) s) (hn : s.arg1.toInt = bits.length)
    (hw : bits.length ≤ w) :
    ∃ t, readerBits o w s = .done (some (BitVec.ofNat 64 (valueOfBits bits))) t ∧ ReaderGives o l t := by
  obtain ⟨t, hbits, ht⟩ := readBits_of_gives (0 : BitVec w) h
  refine ⟨t, ?_, ht⟩
  rw [readerBits_open h.1 hn hw, hbits, Run.bind_done, zext64_foldl_shiftInBit hw]

/-- R202: so it does with its count put into `ARG1`. -/
theorem readerBits_loaded_of_gives {w n : Nat} (h : ReaderGives o (bits ++ l) s) (hn : bits.length = n) (hle : n ≤ w)
    (hw : w < 2 ^ 31) :
    ∃ t, readerBits o w { s with arg1 := BitVec.ofNat 32 n } = .done (some (BitVec.ofNat 64 (valueOfBits bits))) t ∧
      ReaderGives o l t := by
  subst hn
  exact readerBits_of_gives (h.of_eq (by cases o <;> rfl) (by cases o <;> rfl))
    (toInt_ofNat_count (hle.trans_lt hw)) hle

/-- R202: a reading command returns the next bits as a number. -/
theorem ReadCmd.issue_of_gives {c : ReadCmd} (h : ReaderGives o (bits ++ l) s) (hc : bits.length = c.count) :
    ∃ t, c.issue o s = .next (succeed (some (BitVec.ofNat 64 (valueOfBits bits))) t) ∧ ReaderGives o l t := by
  cases c with
  | bit =>
    obtain ⟨b, rfl⟩ := List.length_eq_one_iff.mp hc
    obtain ⟨t, hbit, ht⟩ := readBit_of_gives h
    refine ⟨t, (exec_of_commandRun_done (commandRun_rdBit_done h.1 hbit)).trans ?_, ht⟩
    cases b <;> rfl
  | bits32 n =>
    obtain ⟨t, hrun, ht⟩ := readerBits_loaded_of_gives h (n := n.val) hc (Nat.le_of_lt_succ n.isLt) (by decide)
    exact ⟨t, exec_of_commandRun_done ((congrFun (commandRun_rdBits32 o) _).trans hrun), ht⟩
  | bits64 n =>
    obtain ⟨t, hrun, ht⟩ := readerBits_loaded_of_gives h (n := n.val) hc (Nat.le_of_lt_succ n.isLt) (by decide)
    exact ⟨t, exec_of_commandRun_done ((congrFun (commandRun_rdBits64 o) _).trans hrun), ht⟩

end Gives

theorem fieldBits_eq_reverse (v : Word64) (n : Nat) : fieldBits v n = ((List.range n).map v.getLsbD).reverse := by
  induction n with
  | zero => rfl
  | succ n ih =>
    rw [fieldBits, ih, List.range_succ, List.map_append, List.reverse_append]
    rfl

/-- R66: the bits of the number that a list of at most 64 bits writes are the list. -/
theorem fieldBits_valueOfBits {l : List Bool} (h : l.length ≤ 64) :
    fieldBits (BitVec.ofNat 64 (valueOfBits l)) l.length = l := by
  have hbits : (List.range l.length).map (BitVec.ofNat 64 (valueOfBits l)).getLsbD =
      (List.range l.length).map fun k => l.reverse.getD k false := by
    refine List.map_congr_left fun k hk => ?_
    have hlt : k < 64 := (List.mem_range.mp hk).trans_le h
    rw [BitVec.getLsbD_ofNat, decide_eq_true hlt, Bool.true_and, valueOfBits_testBit]
  have hall := map_range_getD_false (l := l.reverse) (n := l.length) List.length_reverse.le
  rw [List.length_reverse, Nat.sub_self, List.replicate_zero, List.append_nil] at hall
  rw [fieldBits_eq_reverse, hbits, hall, List.reverse_reverse]

/-- R94: the counts of the readers. -/
theorem ReadCmd.count_le (c : ReadCmd) : c.count ≤ 64 := by
  cases c with
  | bit => decide
  | bits32 n => exact Nat.le_of_lt_succ (n.isLt.trans (by decide))
  | bits64 n => exact Nat.le_of_lt_succ n.isLt

/-- R202: reading commands whose counts add up to the bits a reader has to give return those bits. -/
theorem readAll_of_gives {o : BitOrder} (rs : List ReadCmd) {l : List Bool} {s : State} (h : ReaderGives o l s)
    (hcount : (rs.map ReadCmd.count).sum = l.length) : ∃ t, readAll o rs s = some (l, t) ∧ ReaderGives o [] t := by
  induction rs generalizing l s with
  | nil =>
    obtain rfl := List.length_eq_zero_iff.mp hcount.symm
    exact ⟨s, rfl, h⟩
  | cons c rs ih =>
    rw [List.map_cons, List.sum_cons] at hcount
    have hfirst : (l.take c.count).length = c.count := List.length_take_of_le (by omega)
    rw [← List.take_append_drop c.count l] at h
    obtain ⟨u, hissue, hu⟩ := ReadCmd.issue_of_gives h hfirst
    have hrest : (rs.map ReadCmd.count).sum = (l.drop c.count).length := by
      rw [List.length_drop]
      omega
    obtain ⟨t, hall, ht⟩ := ih (hu.of_eq (reader_succeed (some (BitVec.ofNat 64 (valueOfBits (l.take c.count)))) u o)
      (port_succeed _ u _)) hrest
    refine ⟨t, ?_, ht⟩
    have hbits := fieldBits_valueOfBits (hfirst.trans_le c.count_le)
    rw [hfirst] at hbits
    rw [readAll, hissue]
    simp only [succeed_status, if_true, hall, succeed_some_res, hbits, List.take_append_drop]

/-- R61: at its end the device has no byte to give. -/
theorem streamAt_srcRead_end (data : List Byte) (sk : Bool) :
    (streamAt data data.length sk).srcRead = some (.eof, streamAt data data.length sk) := by
  simp [streamAt, Device.srcRead, MemStream.srcRead]

/-- R150, R202: `EOS` answers 1 on a reader with no bits left. -/
theorem exec_rdEos_of_gives_nil {o : BitOrder} {s : State} (h : ReaderGives o [] s) :
    ∃ t, exec (rdEos o) s = .next (succeed (some 1) t) := by
  obtain ⟨hatt, front, tail, sk, hport, hbits⟩ := h
  obtain ⟨hunread, htail⟩ := List.append_eq_nil_iff.mp hbits
  have hcur : (s.reader o).cur = 8 := by
    by_contra hne
    rw [unreadBits_inside o hne] at hunread
    cases hunread
  obtain rfl : tail = [] := by
    have hlength := bitsOfBytes_length o tail
    rw [htail, List.length_nil] at hlength
    exact List.length_eq_zero_iff.mp (by omega)
  rw [List.append_nil] at hport
  have hread := streamAt_srcRead_end front sk
  rw [← hport] at hread
  exact ⟨_, exec_of_commandRun_done (commandRun_rdEos_eof hatt hcur hread)⟩

/-- Settles O53: the sink holds the padded bytes of the bits written, and a reader gives the bits of its bytes. -/
theorem bitStreamRoundTrip : Obligations.BitStreamRoundTrip := by
  intro o cs s sk hwriter hport bits
  obtain ⟨t, t2, hall, hflush, hstatus, hsink⟩ := writeAll_then_flush cs hwriter hport
  refine ⟨t, t2, paddedBytes o bits, hall, hflush, hstatus, hsink, packBytes_length ..,
    fun rs r sk' hr hsource hsum => ?_⟩
  have hgives := readerGives_fresh hr hsource
  rw [bitsOfBytes_paddedBytes] at hgives
  have hlength : (rs.map ReadCmd.count).sum =
      (bits ++ List.replicate (8 * (paddedBytes o bits).length - bits.length) false).length := by
    rw [hsum, ← bitsOfBytes_paddedBytes, bitsOfBytes_length]
  obtain ⟨r', hread, hend⟩ := readAll_of_gives rs hgives hlength
  obtain ⟨r2, heos⟩ := exec_rdEos_of_gives_nil hend
  exact ⟨r', _, hread, heos, succeed_status .., succeed_some_res ..⟩

end Sys2Proof.Machine

/-! # The endian units (spec/43_endian.md)

A word is its eight bytes, and a byte sequence read as a number has as byte `j` the `j`-th byte from its end. With these
two facts SWAPn, TOBEn and FROMBEn of every width are one unit in the number of bytes `m`: `SWAP` answers the value of
the reversed sequence of the operand's bytes, `TOBE` stores the sequence, `FROMBE` answers the value of a stored one. -/

namespace Sys2Proof.Machine

/-! ### The bytes of a word (R10) -/

theorem getLsbD_byteOf {w : Nat} (v : BitVec w) (j : Nat) {k : Nat} (hk : k < 8) :
    (byteOf v j).getLsbD k = v.getLsbD (8 * j + k) := by
  simp [byteOf, hk]

/-- A bit of a word stands in the byte of its quotient by 8. -/
theorem getLsbD_eq_getLsbD_byteOf {w : Nat} (v : BitVec w) (i : Nat) :
    v.getLsbD i = (byteOf v (i / 8)).getLsbD (i % 8) := by
  rw [getLsbD_byteOf v _ (Nat.mod_lt i (by decide)), Nat.div_add_mod]

theorem eq_of_byteOf_eq {x y : Word64} (h : ∀ j, j < 8 → byteOf x j = byteOf y j) : x = y :=
  BitVec.eq_of_getLsbD_eq fun i hi => by
    rw [getLsbD_eq_getLsbD_byteOf x, getLsbD_eq_getLsbD_byteOf y, h (i / 8) (by omega)]

/-- R11: a word is the number of its low bytes when it agrees with `v` there and is zero above. -/
theorem toNat_eq_mod_of_byteOf_eq {x v : Word64} {m : Nat} (hlow : ∀ j, j < m → byteOf x j = byteOf v j)
    (hlt : x.toNat < 2 ^ (8 * m)) : x.toNat = v.toNat % 2 ^ (8 * m) := by
  refine Nat.eq_of_testBit_eq fun i => ?_
  rw [Nat.testBit_mod_two_pow]
  by_cases hi : i < 8 * m
  · rw [decide_eq_true hi, Bool.true_and, BitVec.testBit_toNat, BitVec.testBit_toNat, getLsbD_eq_getLsbD_byteOf x,
      getLsbD_eq_getLsbD_byteOf v, hlow (i / 8) (by omega)]
  · rw [decide_eq_false hi, Bool.false_and]
    exact Nat.testBit_lt_two_pow (hlt.trans_le (Nat.pow_le_pow_right (by decide) (Nat.le_of_not_lt hi)))

@[simp] theorem byteOf_zero (w j : Nat) : byteOf (0#w) j = 0#8 := BitVec.extractLsb'_zero

theorem byteOf_or {w : Nat} (x y : BitVec w) (j : Nat) : byteOf (x ||| y) j = byteOf x j ||| byteOf y j :=
  BitVec.extractLsb'_or

theorem byteOf_and {w : Nat} (x y : BitVec w) (j : Nat) : byteOf (x &&& y) j = byteOf x j &&& byteOf y j :=
  BitVec.extractLsb'_and

theorem byteOf_eq_zero_of_lt {x : Word64} {m j : Nat} (hx : x.toNat < 2 ^ (8 * m)) (hj : m ≤ j) :
    byteOf x j = 0#8 :=
  BitVec.eq_of_getLsbD_eq fun k hk => by
    rw [getLsbD_byteOf x j hk, ← BitVec.testBit_toNat, BitVec.getLsbD_zero]
    exact Nat.testBit_lt_two_pow (hx.trans_le (Nat.pow_le_pow_right (by decide) (by omega)))

theorem byteOf_ushiftRight (x : Word64) (k j : Nat) : byteOf (x >>> (8 * k)) j = byteOf x (j + k) :=
  BitVec.eq_of_getLsbD_eq fun i hi => by
    have hplace : 8 * k + (8 * j + i) = 8 * (j + k) + i := by omega
    rw [getLsbD_byteOf _ _ hi, getLsbD_byteOf _ _ hi, BitVec.getLsbD_ushiftRight, hplace]

theorem byteOf_shiftLeft (x : Word64) (k : Nat) {j : Nat} (hj : j < 8) :
    byteOf (x <<< (8 * k)) j = if j < k then 0#8 else byteOf x (j - k) :=
  BitVec.eq_of_getLsbD_eq fun i hi => by
    rw [getLsbD_byteOf _ _ hi, BitVec.getLsbD_shiftLeft, decide_eq_true (by omega : 8 * j + i < 64), Bool.true_and]
    split
    next hlt => rw [decide_eq_true (by omega : 8 * j + i < 8 * k), Bool.not_true, Bool.false_and, BitVec.getLsbD_zero]
    next hge =>
      have hplace : 8 * j + i - 8 * k = 8 * (j - k) + i := by omega
      rw [decide_eq_false (by omega : ¬ 8 * j + i < 8 * k), Bool.not_false, Bool.true_and, hplace,
        getLsbD_byteOf _ _ hi]

/-- The low bytes of an operand do not depend on the width it is taken at (R93). -/
theorem byteOf_extractLsb' {u : Nat} (v : BitVec u) {w j : Nat} (h : 8 * j + 8 ≤ w) :
    byteOf (v.extractLsb' 0 w) j = byteOf v j :=
  BitVec.eq_of_getLsbD_eq fun k hk => by
    rw [getLsbD_byteOf _ _ hk, getLsbD_byteOf _ _ hk, BitVec.getLsbD_extractLsb', Nat.zero_add,
      decide_eq_true (by omega : 8 * j + k < w), Bool.true_and]

theorem bigEndianBytes_congr {u w : Nat} {x : BitVec u} {y : BitVec w} {m : Nat}
    (h : ∀ j, j < m → byteOf x j = byteOf y j) : bigEndianBytes x m = bigEndianBytes y m := by
  induction m with
  | zero => rfl
  | succ m ih =>
    rw [bigEndianBytes, bigEndianBytes, h m (Nat.lt_succ_self m), ih fun j hj => h j (Nat.lt_succ_of_lt hj)]

theorem getElem_bigEndianBytes {w : Nat} (v : BitVec w) {m j : Nat} (h : j < (bigEndianBytes v m).length) :
    (bigEndianBytes v m)[j] = byteOf v (m - 1 - j) := by
  induction m generalizing j with
  | zero => cases h
  | succ m ih =>
    cases j with
    | zero => rfl
    | succ j =>
      have hindex : m + 1 - 1 - (j + 1) = m - 1 - j := by omega
      rw [hindex]
      exact ih (Nat.lt_of_succ_lt_succ h)

/-! ### Byte sequences as numbers (R67) -/

theorem bigEndianValue_concat (bs : List Byte) (b : Byte) :
    bigEndianValue (bs ++ [b]) = bigEndianValue bs <<< 8 ||| b.setWidth 64 := by
  simp only [bigEndianValue, List.foldl_append, List.foldl_cons, List.foldl_nil]

theorem byteOf_setWidth_byte (b : Byte) (j : Nat) : byteOf (b.setWidth 64 : Word64) j = if j = 0 then b else 0#8 :=
  BitVec.eq_of_getLsbD_eq fun k hk => by
    rw [getLsbD_byteOf _ _ hk, BitVec.getLsbD_setWidth]
    split
    next h => rw [h, Nat.mul_zero, Nat.zero_add, decide_eq_true (by omega : k < 64), Bool.true_and]
    next h => rw [BitVec.getLsbD_of_ge b _ (by omega), Bool.and_false, BitVec.getLsbD_zero]

/-- A byte put at the end is byte 0, and moves the others up by one. -/
theorem byteOf_shiftLeft_eight_or (x : Word64) (b : Byte) {j : Nat} (hj : j < 8) :
    byteOf (x <<< 8 ||| b.setWidth 64) j = if j = 0 then b else byteOf x (j - 1) := by
  have hshift : byteOf (x <<< 8) j = if j < 1 then 0#8 else byteOf x (j - 1) := byteOf_shiftLeft x 1 hj
  rw [byteOf_or, hshift, byteOf_setWidth_byte]
  cases j with
  | zero => exact BitVec.zero_or
  | succ j => exact BitVec.or_zero

/-- R67: byte `j` of a number is byte `j` from the end of its sequence, and zero past its beginning. -/
theorem byteOf_bigEndianValue_reverse (bs : List Byte) {j : Nat} (hj : j < 8) :
    byteOf (bigEndianValue bs.reverse) j = bs.getD j 0#8 := by
  induction bs generalizing j with
  | nil => exact byteOf_zero 64 j
  | cons b bs ih =>
    rw [List.reverse_cons, bigEndianValue_concat, byteOf_shiftLeft_eight_or _ _ hj]
    cases j with
    | zero => rfl
    | succ j => exact ih (Nat.lt_of_succ_lt hj)

theorem byteOf_bigEndianValue {bs : List Byte} (hlength : bs.length ≤ 8) {j : Nat} (hj : j < bs.length) :
    byteOf (bigEndianValue bs) j = bs[bs.length - 1 - j] := by
  have h := byteOf_bigEndianValue_reverse bs.reverse (j := j) (by omega)
  rw [List.reverse_reverse] at h
  rw [h, List.getD_eq_getElem _ _ (by simpa using hj), List.getElem_reverse]

theorem toNat_bigEndianValue_lt (bs : List Byte) : (bigEndianValue bs).toNat < 2 ^ (8 * bs.length) := by
  induction bs using List.reverseRecOn with
  | nil => decide
  | append_singleton bs b ih =>
    rw [bigEndianValue_concat, BitVec.toNat_or, List.length_append, List.length_singleton, Nat.mul_succ]
    refine Nat.or_lt_two_pow ?_ ?_
    · rw [BitVec.toNat_shiftLeft, Nat.shiftLeft_eq, pow_add]
      exact (Nat.mod_le _ _).trans_lt (Nat.mul_lt_mul_of_pos_right ih (by decide))
    · rw [BitVec.toNat_setWidth]
      exact (Nat.mod_le _ _).trans_lt (b.isLt.trans_le (Nat.pow_le_pow_right (by decide) (Nat.le_add_left 8 _)))

/-- R96: bytes joined with `::` and zero-extended are the number of their sequence. -/
theorem zext64_append {w : Nat} {a : BitVec w} {bs : List Byte} (h : zext64 a = bigEndianValue bs) (b : Byte) :
    zext64 (a ++ b) = bigEndianValue (bs ++ [b]) := by
  rw [bigEndianValue_concat, ← h]
  refine BitVec.eq_of_getLsbD_eq fun i hi => ?_
  simp only [zext64, BitVec.getLsbD_setWidth, BitVec.getLsbD_append, BitVec.getLsbD_or, BitVec.getLsbD_shiftLeft]
  by_cases hlow : i < 8
  · simp [hlow, hi]
  · simp [hlow, hi, show i - 8 < 64 by omega, BitVec.getLsbD_of_ge b i (by omega)]

theorem zext64_eq_bigEndianValue_singleton (b : Byte) : zext64 b = bigEndianValue [b] := by
  simp [bigEndianValue, zext64]

/-! ### Reversing bytes (R221, R231) -/

/-- R221: `Rev` of the `m` low bytes of `v`. -/
def reverseBytes (m : Nat) (v : Word64) : Word64 := bigEndianValue (bigEndianBytes v m).reverse

theorem byteOf_reverseBytes {m : Nat} (v : Word64) {j : Nat} (hj : j < 8) :
    byteOf (reverseBytes m v) j = if j < m then byteOf v (m - 1 - j) else 0#8 := by
  rw [reverseBytes, byteOf_bigEndianValue_reverse _ hj]
  split
  next h => rw [List.getD_eq_getElem _ _ (by rwa [bigEndianBytes_length]), getElem_bigEndianBytes]
  next h => exact List.getD_eq_default _ _ (by rw [bigEndianBytes_length]; omega)

theorem byteOf_reverseBytes_of_lt {m : Nat} (hm : m ≤ 8) (v : Word64) {j : Nat} (hj : j < m) :
    byteOf (reverseBytes m v) j = byteOf v (m - 1 - j) := by
  rw [byteOf_reverseBytes v (hj.trans_le hm), if_pos hj]

theorem toNat_reverseBytes_lt (m : Nat) (v : Word64) : (reverseBytes m v).toNat < 2 ^ (8 * m) := by
  have h := toNat_bigEndianValue_lt (bigEndianBytes v m).reverse
  rwa [List.length_reverse, bigEndianBytes_length] at h

theorem reverseBytes_congr {m : Nat} {x y : Word64} (h : ∀ j, j < m → byteOf x j = byteOf y j) :
    reverseBytes m x = reverseBytes m y := by
  rw [reverseBytes, bigEndianBytes_congr h, reverseBytes]

/-- R231: `Rev` is its own inverse. -/
theorem toNat_reverseBytes_reverseBytes {m : Nat} (hm : m ≤ 8) (v : Word64) :
    (reverseBytes m (reverseBytes m v)).toNat = v.toNat % 2 ^ (8 * m) := by
  refine toNat_eq_mod_of_byteOf_eq (fun j hj => ?_) (toNat_reverseBytes_lt m _)
  have hback : m - 1 - (m - 1 - j) = j := by omega
  rw [byteOf_reverseBytes_of_lt hm _ hj, byteOf_reverseBytes_of_lt hm _ (by omega), hback]

/-- R231: the bytes of a word, most significant first, read back as a number. -/
theorem toNat_bigEndianValue_bigEndianBytes {m : Nat} (hm : m ≤ 8) (v : Word64) :
    (bigEndianValue (bigEndianBytes v m)).toNat = v.toNat % 2 ^ (8 * m) := by
  have hlength := bigEndianBytes_length v m
  have hlt := toNat_bigEndianValue_lt (bigEndianBytes v m)
  rw [hlength] at hlt
  refine toNat_eq_mod_of_byteOf_eq (fun j hj => ?_) hlt
  have hback : m - 1 - (m - 1 - j) = j := by omega
  rw [byteOf_bigEndianValue (by omega) (by omega), getElem_bigEndianBytes, hlength, hback]

/-! ### The closed formulas of R232 -/

/-- R232: the four bytes of a 32-bit number, reversed by shifts and masks. -/
def closedRev32 (x : Nat) : Nat :=
  ((x <<< 24) &&& 0xFF000000) ||| ((x <<< 8) &&& 0x00FF0000) ||| ((x >>> 8) &&& 0x0000FF00) ||| (x >>> 24)

theorem toNat_shiftLeft_of_lt {x : Word64} {n k : Nat} (hx : x.toNat < 2 ^ n) (hk : n + k ≤ 64) :
    (x <<< k).toNat = x.toNat <<< k := by
  rw [BitVec.toNat_shiftLeft, Nat.mod_eq_of_lt]
  calc x.toNat <<< k = x.toNat * 2 ^ k := Nat.shiftLeft_eq ..
    _ < 2 ^ n * 2 ^ k := Nat.mul_lt_mul_of_pos_right hx (Nat.two_pow_pos k)
    _ = 2 ^ (n + k) := (pow_add ..).symm
    _ ≤ 2 ^ 64 := Nat.pow_le_pow_right (by decide) hk

/-- A mask of eight ones in byte `k` leaves that byte. -/
theorem byteOf_and_mask (x : Word64) (k : Nat) {j : Nat} (hj : j < 8) :
    byteOf (x &&& ((255#8).setWidth 64 <<< (8 * k))) j = if j = k then byteOf x j else 0#8 := by
  rw [byteOf_and, byteOf_shiftLeft _ _ hj, byteOf_setWidth_byte]
  obtain hlt | rfl | hgt := Nat.lt_trichotomy j k
  · rw [if_pos hlt, if_neg (Nat.ne_of_lt hlt), BitVec.and_zero]
  · rw [if_neg (Nat.lt_irrefl j), if_pos (Nat.sub_self j), if_pos rfl]
    exact BitVec.and_allOnes
  · rw [if_neg (Nat.lt_asymm hgt), if_neg (Nat.sub_ne_zero_of_lt hgt), if_neg (Nat.ne_of_gt hgt), BitVec.and_zero]

/-- R232 for a 32-bit number in a 64-bit word: each masked shift puts one byte in its new place. -/
theorem reverseBytes_four_eq {x : Word64} (hx : x.toNat < 2 ^ 32) :
    reverseBytes 4 x =
      ((x <<< 24) &&& 0xFF000000#64) ||| ((x <<< 8) &&& 0x00FF0000#64) ||| ((x >>> 8) &&& 0x0000FF00#64) |||
        (x >>> 24) := by
  refine eq_of_byteOf_eq fun j hj => ?_
  have hfirst := byteOf_and_mask (x <<< (8 * 3)) 3 hj
  have hsecond := byteOf_and_mask (x <<< (8 * 1)) 2 hj
  have hthird := byteOf_and_mask (x >>> (8 * 1)) 1 hj
  have hfourth : byteOf (x >>> 24) j = if j = 0 then byteOf x 3 else 0#8 := by
    refine (byteOf_ushiftRight x 3 j).trans ?_
    split
    next h => rw [h]
    next h => exact byteOf_eq_zero_of_lt (m := 4) hx (by omega)
  rw [byteOf_shiftLeft _ _ hj] at hfirst hsecond
  rw [byteOf_ushiftRight] at hthird
  rw [byteOf_reverseBytes _ hj, byteOf_or, byteOf_or, byteOf_or]
  refine Eq.trans ?_ (congrArg₂ _ (congrArg₂ _ (congrArg₂ _ hfirst hsecond) hthird) hfourth).symm
  interval_cases j <;> simp

theorem toNat_reverseBytes_four_of_lt {x : Word64} (hx : x.toNat < 2 ^ 32) :
    (reverseBytes 4 x).toNat = closedRev32 x.toNat := by
  rw [reverseBytes_four_eq hx]
  simp only [BitVec.toNat_or, BitVec.toNat_and, BitVec.toNat_ushiftRight,
    toNat_shiftLeft_of_lt (k := 24) hx (by decide), toNat_shiftLeft_of_lt (k := 8) hx (by decide)]
  rfl

/-- R93, R96: the low `w` bits of an operand, zero-extended, as a number. -/
theorem toNat_zext64_extractLsb' (v : Word64) {w : Nat} (hw : w ≤ 64) :
    (zext64 (v.extractLsb' 0 w)).toNat = v.toNat % 2 ^ w := by
  rw [zext64, BitVec.toNat_setWidth_of_le hw, BitVec.extractLsb'_toNat, Nat.shiftRight_zero]

theorem byteOf_zext64 {w : Nat} (v : BitVec w) {j : Nat} (hj : j < 8) : byteOf (zext64 v) j = byteOf v j :=
  BitVec.eq_of_getLsbD_eq fun k hk => by
    rw [getLsbD_byteOf _ _ hk, getLsbD_byteOf _ _ hk, zext64, BitVec.getLsbD_setWidth,
      decide_eq_true (by omega : 8 * j + k < 64), Bool.true_and]

theorem reverseBytes_zext64_extractLsb' (v : Word64) {m w : Nat} (hm : m ≤ 8) (hw : 8 * m ≤ w) :
    reverseBytes m (zext64 (v.extractLsb' 0 w)) = reverseBytes m v :=
  reverseBytes_congr fun j hj => by
    rw [byteOf_zext64 _ (hj.trans_le hm), byteOf_extractLsb' v (by omega)]

theorem toNat_reverseBytes_two (v : Word64) :
    (reverseBytes 2 v).toNat = (((v.toNat % 2 ^ 16) <<< 8) ||| ((v.toNat % 2 ^ 16) >>> 8)) &&& 0xFFFF := by
  have hx := toNat_zext64_extractLsb' v (w := 16) (by decide)
  have hlt : (zext64 (v.extractLsb' 0 16)).toNat < 2 ^ 16 := hx.trans_lt (Nat.mod_lt _ (by decide))
  rw [← reverseBytes_zext64_extractLsb' v (by decide) (Nat.le_refl 16), ← hx]
  generalize zext64 (v.extractLsb' 0 16) = x at hlt
  have hswap : ∀ j, j < 2 → byteOf (reverseBytes 2 x) j = byteOf (x <<< 8 ||| x >>> 8) j := by
    intro j hj
    have hleft := byteOf_shiftLeft x 1 (hj.trans (by decide))
    have hright := byteOf_ushiftRight x 1 j
    refine Eq.trans ?_ ((byteOf_or ..).trans (congrArg₂ _ hleft hright)).symm
    rw [byteOf_reverseBytes_of_lt (by decide) x hj]
    interval_cases j
    · exact BitVec.zero_or.symm
    · rw [byteOf_eq_zero_of_lt (m := 2) hlt (Nat.le_refl 2)]
      exact BitVec.or_zero.symm
  have hmask := Nat.and_two_pow_sub_one_eq_mod (x.toNat <<< 8 ||| x.toNat >>> 8) 16
  rw [toNat_eq_mod_of_byteOf_eq hswap (toNat_reverseBytes_lt 2 x), BitVec.toNat_or,
    toNat_shiftLeft_of_lt (k := 8) hlt (by decide), BitVec.toNat_ushiftRight]
  exact hmask.symm

theorem toNat_reverseBytes_four (v : Word64) : (reverseBytes 4 v).toNat = closedRev32 (v.toNat % 2 ^ 32) := by
  have hx := toNat_zext64_extractLsb' v (w := 32) (by decide)
  rw [← reverseBytes_zext64_extractLsb' v (by decide) (Nat.le_refl 32), ← hx]
  exact toNat_reverseBytes_four_of_lt (hx.trans_lt (Nat.mod_lt _ (by decide)))

theorem reverseBytes_eight_eq (v : Word64) :
    reverseBytes 8 v = reverseBytes 4 v <<< 32 ||| reverseBytes 4 (v >>> 32) := by
  refine eq_of_byteOf_eq fun j hj => ?_
  have hleft := byteOf_shiftLeft (reverseBytes 4 v) 4 hj
  have hright : byteOf (reverseBytes 4 (v >>> 32)) j = if j < 4 then byteOf v (7 - j) else 0#8 := by
    rw [byteOf_reverseBytes _ hj]
    split
    next h =>
      have hplace : 4 - 1 - j + 4 = 7 - j := by omega
      rw [← hplace]
      exact byteOf_ushiftRight v 4 _
    next => rfl
  refine Eq.trans ?_ ((byteOf_or ..).trans (congrArg₂ _ hleft hright)).symm
  rw [byteOf_reverseBytes_of_lt (Nat.le_refl 8) _ hj]
  by_cases h : j < 4
  · rw [if_pos h, if_pos h]
    exact BitVec.zero_or.symm
  · have hplace : 4 - 1 - (j - 4) = 8 - 1 - j := by omega
    rw [if_neg h, if_neg h, byteOf_reverseBytes_of_lt (by decide) v (by omega), hplace]
    exact BitVec.or_zero.symm

theorem toNat_reverseBytes_eight (v : Word64) :
    (reverseBytes 8 v).toNat = closedRev32 (v.toNat % 2 ^ 32) <<< 32 ||| closedRev32 (v.toNat >>> 32) := by
  have hhigh : (v >>> 32).toNat = v.toNat >>> 32 := BitVec.toNat_ushiftRight ..
  have hlt : (v >>> 32).toNat < 2 ^ 32 := by
    have := v.isLt
    rw [hhigh, Nat.shiftRight_eq_div_pow]
    omega
  rw [reverseBytes_eight_eq, BitVec.toNat_or, toNat_shiftLeft_of_lt (toNat_reverseBytes_lt 4 v) (by decide),
    toNat_reverseBytes_four, toNat_reverseBytes_four_of_lt hlt, hhigh]

/-! ### The commands (R222 to R230) -/

/-- The three commands of an endian unit of `m` bytes: `SWAP`, `TOBE`, `FROMBE`. -/
structure EndianUnit (sw tobe frombe : Instr) (m : Nat) : Prop where
  le_eight : m ≤ 8
  swap : ∀ s, commandRun sw s = .done (some (reverseBytes m s.arg0)) s
  tobe : ∀ s, commandRun tobe s = toBuffer (bigEndianBytes s.arg0 m) s
  frombe : ∀ s, commandRun frombe s = fromBuffer m s

theorem zext64_swapBytes16 (v : Word64) : zext64 (swapBytes16 (v.extractLsb' 0 16)) = reverseBytes 2 v := by
  rw [reverseBytes, ← bigEndianBytes_congr fun j hj => byteOf_extractLsb' (w := 16) v (by omega)]
  exact zext64_append (zext64_eq_bigEndianValue_singleton _) _

theorem zext64_swapBytes32 (v : Word64) : zext64 (swapBytes32 (v.extractLsb' 0 32)) = reverseBytes 4 v := by
  rw [reverseBytes, ← bigEndianBytes_congr fun j hj => byteOf_extractLsb' (w := 32) v (by omega)]
  exact zext64_append (zext64_append (zext64_append (zext64_eq_bigEndianValue_singleton _) _) _) _

theorem swapBytes64_eq (v : Word64) : swapBytes64 v = reverseBytes 8 v :=
  (BitVec.setWidth_eq _).symm.trans
    (zext64_append (zext64_append (zext64_append (zext64_append (zext64_append (zext64_append (zext64_append
      (zext64_eq_bigEndianValue_singleton _) _) _) _) _) _) _) _)

theorem endianUnit16 : EndianUnit .swap16 .tobe16 .frombe16 2 where
  le_eight := by decide
  swap s := congrArg (Run.done · s) (congrArg some (zext64_swapBytes16 s.arg0))
  tobe s := congrArg (toBuffer · s) (bigEndianBytes_congr fun j hj => byteOf_extractLsb' s.arg0 (by omega))
  frombe _ := rfl

theorem endianUnit32 : EndianUnit .swap32 .tobe32 .frombe32 4 where
  le_eight := by decide
  swap s := congrArg (Run.done · s) (congrArg some (zext64_swapBytes32 s.arg0))
  tobe s := congrArg (toBuffer · s) (bigEndianBytes_congr fun j hj => byteOf_extractLsb' s.arg0 (by omega))
  frombe _ := rfl

theorem endianUnit64 : EndianUnit .swap64 .tobe64 .frombe64 8 where
  le_eight := by decide
  swap s := congrArg (Run.done · s) (congrArg some (swapBytes64_eq s.arg0))
  tobe _ := rfl
  frombe _ := rfl

/-- The three units, with their bytes. -/
def endianUnits : List (Instr × Instr × Instr × Nat) :=
  [(.swap16, .tobe16, .frombe16, 2), (.swap32, .tobe32, .frombe32, 4), (.swap64, .tobe64, .frombe64, 8)]

theorem endianUnit_of_mem {u : Instr × Instr × Instr × Nat} (h : u ∈ endianUnits) :
    EndianUnit u.1 u.2.1 u.2.2.1 u.2.2.2 := by
  simp only [endianUnits, List.mem_cons, List.not_mem_nil, or_false] at h
  obtain rfl | rfl | rfl := h
  exacts [endianUnit16, endianUnit32, endianUnit64]

section Unit

variable {sw tobe frombe : Instr} {m : Nat} (unit : EndianUnit sw tobe frombe m) (s : State)

include unit

theorem EndianUnit.exec_swap : exec sw s = .next (succeed (some (reverseBytes m s.arg0)) s) :=
  exec_of_commandRun_done (unit.swap s)

/-- `TOBE` stores `m` bytes, so `BLEN` is `m`. -/
theorem EndianUnit.exec_tobe : exec tobe s = .next
    { s with status := 0, buf := s.buf.store 0 (bigEndianBytes s.arg0 m), blen := BitVec.ofNat 8 m } := by
  have hexec := exec_of_commandRun_done (unit.tobe s)
  rwa [bigEndianBytes_length] at hexec

theorem EndianUnit.exec_frombe_outOfRange (h : s.arg1.toInt < 0 ∨ s.blen.toNat < s.arg1.toInt + m) :
    exec frombe s = .next (raiseError .outOfRange s) :=
  exec_of_commandRun_raised ((unit.frombe s).trans (if_pos h))

theorem EndianUnit.exec_frombe_inside {off : Nat} (hblen : s.blen.toNat ≤ s.bufBytes) (hoff : s.arg1.toInt = off)
    (hin : off + m ≤ s.blen.toNat) :
    exec frombe s = .next (succeed (some (bigEndianValue (s.buf.load off m))) s) := by
  have hsigned : arg1Signed s = off := hoff
  refine exec_of_commandRun_done ((unit.frombe s).trans ?_)
  rw [fromBuffer, hsigned, if_neg (by omega), if_neg (by omega), Int.toNat_natCast]

end Unit

/-! ### The byte buffer (R62, R67) -/

@[simp] theorem Memory.load_length (mem : Memory) (a n : Nat) : (mem.load a n).length = n := by
  induction n generalizing a with
  | zero => rfl
  | succ n ih => exact congrArg Nat.succ (ih (a + 1))

theorem Memory.getElem_load (mem : Memory) (a : Nat) {n k : Nat} (h : k < (mem.load a n).length) :
    (mem.load a n)[k] = mem.read (a + k) := by
  induction n generalizing a k with
  | zero => cases h
  | succ n ih =>
    cases k with
    | zero => rfl
    | succ k =>
      have haddress : a + (k + 1) = a + 1 + k := by omega
      rw [haddress]
      exact ih (a + 1) (Nat.lt_of_succ_lt_succ h)

theorem Memory.load_store (mem : Memory) (a : Nat) (bs : List Byte) (hwf : Memory.wf mem) :
    (mem.store a bs).load a bs.length = bs :=
  List.ext_getElem (Memory.load_length ..) fun k _ hk => by
    rw [Memory.getElem_load, Memory.read_store bs mem a k hwf hk]

/-- R223: what `TOBE` leaves at address `j`. -/
theorem read_store_bigEndianBytes (v : Word64) {mem : Memory} (hwf : Memory.wf mem) {m j : Nat} (hj : j < m) :
    Memory.read (mem.store 0 (bigEndianBytes v m)) j = byteOf v (m - 1 - j) := by
  have hread := Memory.read_store (bigEndianBytes v m) mem 0 j hwf (by rwa [bigEndianBytes_length])
  rwa [Nat.zero_add, getElem_bigEndianBytes] at hread

/-- R224: byte `j` of the number loaded from `m` bytes at `off`. -/
theorem byteOf_bigEndianValue_load (mem : Memory) (off : Nat) {m j : Nat} (hm : m ≤ 8) (hj : j < m) :
    byteOf (bigEndianValue (mem.load off m)) j = mem.read (off + (m - 1 - j)) := by
  have hlength := Memory.load_length mem off m
  have hbyte := byteOf_bigEndianValue (hlength.trans_le hm) (hj.trans_eq hlength.symm)
  rwa [Memory.getElem_load, hlength] at hbyte

theorem toNat_bigEndianValue_load_lt (mem : Memory) (off m : Nat) :
    (bigEndianValue (mem.load off m)).toNat < 2 ^ (8 * m) := by
  have hlt := toNat_bigEndianValue_lt (mem.load off m)
  rwa [Memory.load_length] at hlt

/-! ### The statements about the commands (R222 to R231) -/

/-- Settles O55: the three results are `Rev` of the operand at 2, 4 and 8 bytes. -/
theorem swapReversesBytes : Obligations.SwapReversesBytes :=
  ⟨rfl, rfl, rfl, fun s => ⟨_, _, _, endianUnit16.exec_swap s, endianUnit32.exec_swap s, endianUnit64.exec_swap s,
    fun _ => byteOf_reverseBytes_of_lt (by decide) s.arg0, toNat_reverseBytes_lt 2 s.arg0,
    fun _ => byteOf_reverseBytes_of_lt (by decide) s.arg0, toNat_reverseBytes_lt 4 s.arg0,
    fun _ => byteOf_reverseBytes_of_lt (by decide) s.arg0,
    toNat_reverseBytes_two s.arg0, toNat_reverseBytes_four s.arg0, toNat_reverseBytes_eight s.arg0⟩⟩

/-- Settles O56, by what a store writes and leaves. -/
theorem tobeStoresBigEndian : Obligations.TobeStoresBigEndian := by
  refine ⟨rfl, rfl, rfl, fun i m s hi hwf => ?_⟩
  obtain ⟨u, hu, ⟨⟩⟩ := (List.mem_map (l := endianUnits) (f := fun u => (u.2.1, u.2.2.2))).mp hi
  have unit := endianUnit_of_mem hu
  refine ⟨_, unit.exec_tobe s, fun j hj => read_store_bigEndianBytes s.arg0 hwf hj, fun a ha => ?_⟩
  exact Memory.read_store_outside _ _ _ _ (.inr (by rwa [bigEndianBytes_length, Nat.zero_add]))

/-- Settles O57: the range check decides, and byte `j` of the result is the `j`-th from the end of those read. -/
theorem frombeReadsBigEndian : Obligations.FrombeReadsBigEndian := by
  refine ⟨rfl, rfl, rfl, fun i m s hi => ?_⟩
  obtain ⟨u, hu, ⟨⟩⟩ := (List.mem_map (l := endianUnits) (f := fun u => (u.2.2.1, u.2.2.2))).mp hi
  have unit := endianUnit_of_mem hu
  refine ⟨unit.exec_frombe_outOfRange s, fun hblen off hoff hin =>
    ⟨_, unit.exec_frombe_inside s hblen hoff hin, fun j hj => ?_, ?_⟩⟩
  · exact byteOf_bigEndianValue_load s.buf off unit.le_eight hj
  · exact toNat_bigEndianValue_load_lt ..

/-- R231 for an endian unit of `m` bytes. -/
theorem EndianUnit.laws {sw tobe frombe : Instr} {m : Nat} (unit : EndianUnit sw tobe frombe m) {s : State}
    (hwf : Memory.wf s.buf) :
    ∃ t u w x : State,
      exec tobe s = .next t ∧ exec frombe { t with arg1 := 0 } = .next u ∧ u.status = 0 ∧
      u.res.toNat = s.arg0.toNat % 2 ^ (8 * m) ∧
      exec sw s = .next w ∧ exec sw { w with arg0 := w.res } = .next x ∧
      x.res.toNat = s.arg0.toNat % 2 ^ (8 * m) ∧
      ∀ j, j < m → Memory.read t.buf j = byteOf s.arg0 (m - 1 - j) ∧ Memory.read t.buf j = byteOf w.res j := by
  have hm := unit.le_eight
  have hblen : (BitVec.ofNat 8 m).toNat = m := Nat.mod_eq_of_lt (by omega)
  have hroom : m ≤ s.bufBytes := (hm.trans (by decide)).trans (bufBytes_ge s)
  have hload := Memory.load_store s.buf 0 (bigEndianBytes s.arg0 m) hwf
  rw [bigEndianBytes_length] at hload
  refine ⟨_, _, _, _, unit.exec_tobe s,
    unit.exec_frombe_inside _ (hblen.trans_le hroom) (off := 0) rfl ((Nat.zero_add m).trans hblen.symm).le,
    succeed_status .., ?_, unit.exec_swap s, unit.exec_swap _, toNat_reverseBytes_reverseBytes hm s.arg0,
    fun j hj => ⟨read_store_bigEndianBytes s.arg0 hwf hj, ?_⟩⟩
  · rw [succeed_some_res, hload, toNat_bigEndianValue_bigEndianBytes hm]
  · rw [succeed_some_res, byteOf_reverseBytes_of_lt hm _ hj, read_store_bigEndianBytes s.arg0 hwf hj]

/-- Settles O58: the laws of a unit, its width `n` being 8 bits for each byte. -/
theorem endianLaws : Obligations.EndianLaws := by
  intro sw tobe frombe n s h hwf
  obtain ⟨u, hu, ⟨⟩⟩ :=
    (List.mem_map (l := endianUnits) (f := fun u => (u.1, u.2.1, u.2.2.1, 8 * u.2.2.2))).mp h
  rw [Nat.mul_div_cancel_left _ (by decide : 0 < 8)]
  exact (endianUnit_of_mem hu).laws hwf

/-! ### The reference functions (R236, R237) -/

theorem length_swapGroupsLoop (g q : Nat) {bs : List Byte} (h : bs.length = q * g) :
    (swapGroupsLoop g q bs).length = bs.length := by
  induction q generalizing bs with
  | zero => rw [h, Nat.zero_mul]; rfl
  | succ q ih =>
    rw [Nat.succ_mul] at h
    have hrest := ih (bs := bs.drop g) (by rw [List.length_drop]; omega)
    rw [swapGroupsLoop, List.length_append, hrest, List.length_reverse, ← List.length_append, List.take_append_drop]

/-- Each group is reversed in its place. -/
theorem getElem?_swapGroupsLoop {g q k j : Nat} {bs : List Byte} (h : bs.length = q * g) (hk : k < q) (hj : j < g) :
    (swapGroupsLoop g q bs)[k * g + j]? = bs[k * g + (g - 1 - j)]? := by
  induction q generalizing bs k with
  | zero => cases hk
  | succ q ih =>
    rw [Nat.succ_mul] at h
    have hfirst : (bs.take g).length = g := by rw [List.length_take]; omega
    rw [swapGroupsLoop]
    cases k with
    | zero =>
      rw [Nat.zero_mul, Nat.zero_add, Nat.zero_add, List.getElem?_append_left (by rwa [List.length_reverse, hfirst]),
        List.getElem?_reverse (by rwa [hfirst]), hfirst, List.getElem?_take_of_lt (by omega)]
    | succ k =>
      have hplace : ∀ r, (k + 1) * g + r = g + (k * g + r) := fun r => by rw [Nat.succ_mul]; omega
      rw [hplace, hplace, List.getElem?_append_right (by rw [List.length_reverse, hfirst]; omega), List.length_reverse,
        hfirst, Nat.add_sub_cancel_left, ih (by rw [List.length_drop]; omega) (Nat.lt_of_succ_lt_succ hk),
        List.getElem?_drop]

theorem eq_bigEndianValue_reverse_iff {bs : List Byte} (h : bs.length = 8) (x : Word64) :
    x = bigEndianValue bs.reverse ↔ ∀ j b, bs[j]? = some b → byteOf x j = b := by
  constructor
  · rintro rfl j b hb
    obtain ⟨hj, rfl⟩ := List.getElem?_eq_some_iff.mp hb
    rw [byteOf_bigEndianValue_reverse bs (by omega), List.getD_eq_getElem _ _ hj]
  · intro hbytes
    refine eq_of_byteOf_eq fun j hj => ?_
    rw [byteOf_bigEndianValue_reverse bs hj, List.getD_eq_getElem _ _ (by omega)]
    exact hbytes j _ (List.getElem?_eq_getElem _)

theorem eq_bigEndianValue_iff {bs : List Byte} (h : bs.length = 8) (x : Word64) :
    x = bigEndianValue bs ↔ ∀ j b, bs[j]? = some b → byteOf x (7 - j) = b := by
  constructor
  · rintro rfl j b hb
    obtain ⟨hj, rfl⟩ := List.getElem?_eq_some_iff.mp hb
    have hback : bs.length - 1 - (7 - j) = j := by omega
    rw [byteOf_bigEndianValue (by omega) (by omega)]
    simp only [hback]
  · intro hbytes
    refine eq_of_byteOf_eq fun j hj => ?_
    have hback : 7 - (bs.length - 1 - j) = j := by omega
    have hbyte := hbytes (bs.length - 1 - j) _ (List.getElem?_eq_getElem (by omega))
    rw [hback] at hbyte
    rw [byteOf_bigEndianValue (by omega) (by omega), hbyte]

/-- Distinct bytes make different numbers in the two orders: byte 0 is the first of one and the last of the other. -/
theorem bigEndianValue_reverse_ne {bs : List Byte} (h : bs.length = 8) (hdistinct : bs.Nodup) :
    bigEndianValue bs.reverse ≠ bigEndianValue bs := by
  intro heq
  have hfirst := byteOf_bigEndianValue_reverse bs (j := 0) (by decide)
  rw [heq, byteOf_bigEndianValue (by omega) (by omega), List.getD_eq_getElem _ _ (by omega)] at hfirst
  have hindex := hdistinct.getElem_inj_iff.mp hfirst
  omega

theorem hostByteOrder_eq_littleEndian_iff (bs : List Byte) (x : Word64) :
    hostByteOrder bs x = .littleEndian ↔ x = bigEndianValue bs.reverse := by
  unfold hostByteOrder
  split_ifs with hlittle hbig <;> simp [hlittle]

theorem hostByteOrder_eq_bigEndian_iff {bs : List Byte} (hne : bigEndianValue bs.reverse ≠ bigEndianValue bs)
    (x : Word64) : hostByteOrder bs x = .bigEndian ↔ x = bigEndianValue bs := by
  unfold hostByteOrder
  split_ifs with hlittle hbig
  · simp [hlittle, hne]
  · simp [hbig]
  · simp [hbig]

/-- Settles O59: `SwapGroups` by its groups, `HostByteOrder` by the bytes of the two numbers it compares with. -/
theorem referenceFunctionsOfEndian : Obligations.ReferenceFunctionsOfEndian := by
  refine ⟨fun bs g hg hmod => ?_, fun bs g h => if_neg (by omega), fun bs x hlength hdistinct =>
    ⟨(hostByteOrder_eq_littleEndian_iff bs x).trans (eq_bigEndianValue_reverse_iff hlength x),
      (hostByteOrder_eq_bigEndian_iff (bigEndianValue_reverse_ne hlength hdistinct) x).trans
        (eq_bigEndianValue_iff hlength x)⟩⟩
  have hwhole : bs.length = bs.length / g * g := (Nat.div_mul_cancel (Nat.dvd_of_mod_eq_zero hmod)).symm
  exact ⟨_, if_pos ⟨hg, hmod⟩, length_swapGroupsLoop g _ hwhole, fun k j => getElem?_swapGroupsLoop hwhole⟩

end Sys2Proof.Machine

/-! # Errors (spec/60_exceptions.md R250 to R265)

What a command raises is what its checks and its port primitives raise: a run `RaisesOnly` the kinds of a list. One rule
for each way an operation is built and one lemma for each operation of the units, as for `Confined`, give the rows of
R263. That no mark of the table is idle is shown by columns: for each kind of error there is one state in which every
command marked with it raises it. -/

namespace Sys2Proof.Machine

/-! ### What an error changes (R251, R257, R258) -/

/-- Settles O18: each code is that of its kind, and the free value is the one `raiseError` draws. -/
theorem errorCodesOfR251 : Obligations.ErrorCodesOfR251 := fun s =>
  ⟨rfl, rfl, rfl, rfl, rfl, rfl, rfl, rfl, fun _ => ⟨Config.resAfterError s.draws, rfl⟩⟩

/-! ### Counts outside their range (R94, R254) -/

/-- R254, R262: a command of an open unit that checks a count before anything else stops at the check. -/
theorem exec_of_count_outside {i : Instr} {u : BitUnit} {limit : Nat} {s : State}
    {f : Nat → State → Run (Option Word64)} (hatt : u.att = true)
    (hrun : commandRun i s = (gate u s).bind fun _ s1 => (countOperand limit s1).bind f)
    (hn : s.arg1.toInt < 0 ∨ (limit : Int) < s.arg1.toInt) : exec i s = .next (raiseError .invalidArgument s) := by
  refine exec_of_commandRun_raised ?_
  rw [hrun, gate_bind_open hatt, countOperand_eq_raised.mpr ⟨hn, rfl, rfl⟩, Run.bind_raised]

/-- Settles O21: each of these commands is its gate, its count and the rest. A count of `REP` has no upper limit of its
own, so only the sign is left to check. -/
theorem countsOutsideRangeRaise : Obligations.CountsOutsideRangeRaise := fun s o =>
  ⟨fun hatt hn => exec_of_count_outside hatt (congrFun (commandRun_rdBits32 o) s) hn,
    fun hatt hn => exec_of_count_outside hatt (congrFun (commandRun_rdBits64 o) s) hn,
    fun hatt hn => exec_of_count_outside hatt (congrFun (commandRun_wrBits32 o) s) hn,
    fun hatt hn => exec_of_count_outside hatt (congrFun (commandRun_wrBits64 o) s) hn,
    fun hatt hn => exec_of_count_outside hatt (congrFun (commandRun_wrRep o) s) (.inl hn)⟩

/-! ### Which errors a run can raise -/

/-- A run that, if it raises, raises an error of the list. -/
def Run.RaisesOnly {α : Type} (es : List ErrorKind) (r : Run α) : Prop := ∀ e t, r = .raised e t → e ∈ es

section Rules

variable {α β : Type} {es : List ErrorKind}

theorem Run.RaisesOnly.done (a : α) (s : State) : (Run.done a s).RaisesOnly es := fun _ _ h => nomatch h

theorem Run.RaisesOnly.raised {e : ErrorKind} (he : e ∈ es) (s : State) : (Run.raised e s : Run α).RaisesOnly es :=
  fun _ _ h => by cases h; exact he

/-- The next line of the pseudocode. -/
theorem Run.RaisesOnly.bind {r : Run α} {f : α → State → Run β} (hr : r.RaisesOnly es)
    (hf : ∀ a s, (f a s).RaisesOnly es) : (r.bind f).RaisesOnly es := fun e t h => by
  obtain hraised | ⟨a, s, -, hfa⟩ := Run.bind_eq_raised.mp h
  · exact hr e t hraised
  · exact hf a s e t hfa

end Rules

/-! ### The port primitives and the checks -/

/-- R252, R259: what a source or a sink that answers no byte or takes none makes a command raise. -/
abbrev transferErrors : List ErrorKind := [.endOfStream, .ioError]

section Operations

variable {es : List ErrorKind}

theorem srcRead_raisesOnly (p : Port) (s : State) : (srcRead p s).RaisesOnly es := fun _ _ h =>
  absurd h srcRead_ne_raised

theorem SnkAnswer.error_mem_transferErrors {a : SnkAnswer} {e : ErrorKind} (h : a.error? = some e) :
    e ∈ transferErrors := by
  cases a <;> cases h <;> decide

theorem snkWrite_raisesOnly (h : transferErrors ⊆ es) (p : Port) (b : Byte) (s : State) :
    (snkWrite p b s).RaisesOnly es := fun _ _ hr => by
  obtain ⟨a, d, -, he, -⟩ := snkWrite_eq_raised.mp hr
  exact h (SnkAnswer.error_mem_transferErrors he)

theorem getPos_raisesOnly (h : .notSupported ∈ es) (p : Port) (s : State) : (getPos p s).RaisesOnly es :=
  fun _ _ hr => by
    obtain ⟨rfl, -⟩ := getPos_eq_raised.mp hr
    exact h

theorem getLen_raisesOnly (h : .notSupported ∈ es) (p : Port) (s : State) : (getLen p s).RaisesOnly es :=
  fun _ _ hr => by
    obtain ⟨rfl, -⟩ := getLen_eq_raised.mp hr
    exact h

theorem setPos_raisesOnly (h : .notSupported ∈ es) (p : Port) (v : Word64) (s : State) :
    (setPos p v s).RaisesOnly es := fun _ _ hr => by
  obtain ⟨rfl, -⟩ := setPos_eq_raised.mp hr
  exact h

theorem gate_raisesOnly (h : .illegalState ∈ es) (u : BitUnit) (s : State) : (gate u s).RaisesOnly es :=
  fun _ _ hr => by
    obtain ⟨-, rfl, -⟩ := gate_eq_raised.mp hr
    exact h

theorem countOperand_raisesOnly (h : .invalidArgument ∈ es) (limit : Nat) (s : State) :
    (countOperand limit s).RaisesOnly es := fun _ _ hr => by
  obtain ⟨-, rfl, -⟩ := countOperand_eq_raised.mp hr
  exact h

/-! ### The readers -/

variable (o : BitOrder)

theorem refill_raisesOnly (h : transferErrors ⊆ es) (k : Cursor) (s : State) : (refill o k s).RaisesOnly es := by
  refine .bind (srcRead_raisesOnly _ s) fun a t => ?_
  cases a with
  | byte b => exact .done () _
  | eof => exact .raised (h (by decide)) t
  | ioError => exact .raised (h (by decide)) t

theorem readBit_raisesOnly (h : transferErrors ⊆ es) (s : State) : (readBit o s).RaisesOnly es := by
  unfold readBit
  split
  · exact .bind (refill_raisesOnly o h 0 s) fun _ _ => .done _ _
  · exact .done _ _

theorem readBits_raisesOnly (h : transferErrors ⊆ es) {w : Nat} (n : Nat) (r : BitVec w) (s : State) :
    (readBits o n r s).RaisesOnly es := by
  induction n generalizing r s with
  | zero => exact .done r s
  | succ n ih => exact .bind (readBit_raisesOnly o h s) fun b t => ih (shiftInBit r b) t

theorem readerBit_raisesOnly (h : transferErrors ⊆ es) (hgate : .illegalState ∈ es) (s : State) :
    (readerBit o s).RaisesOnly es :=
  .bind (gate_raisesOnly hgate _ s) fun _ t => .bind (readBit_raisesOnly o h t) fun _ _ => .done _ _

theorem readerBits_raisesOnly (h : transferErrors ⊆ es) (hgate : .illegalState ∈ es) (hcount : .invalidArgument ∈ es)
    (w : Nat) (s : State) : (readerBits o w s).RaisesOnly es :=
  .bind (gate_raisesOnly hgate _ s) fun _ t => .bind (countOperand_raisesOnly hcount w t) fun n u =>
    .bind (readBits_raisesOnly o h n 0 u) fun _ _ => .done _ _

theorem readerGetpos_raisesOnly (hgate : .illegalState ∈ es) (hseek : .notSupported ∈ es) (s : State) :
    (readerGetpos o s).RaisesOnly es :=
  .bind (gate_raisesOnly hgate _ s) fun _ t => .bind (getPos_raisesOnly hseek _ t) fun _ _ => .done _ _

theorem readerLen_raisesOnly (hgate : .illegalState ∈ es) (hseek : .notSupported ∈ es) (s : State) :
    (readerLen o s).RaisesOnly es :=
  .bind (gate_raisesOnly hgate _ s) fun _ t => .bind (getLen_raisesOnly hseek _ t) fun _ _ => .done _ _

theorem readerSetpos_raisesOnly (h : transferErrors ⊆ es) (hgate : .illegalState ∈ es) (hseek : .notSupported ∈ es)
    (s : State) : (readerSetpos o s).RaisesOnly es := by
  refine .bind (gate_raisesOnly hgate _ s) fun _ t => .bind (setPos_raisesOnly hseek _ _ t) fun _ u => ?_
  dsimp only
  split
  · exact .done _ _
  · exact .bind (refill_raisesOnly o h _ _) fun _ _ => .done _ _

/-- R150, R263: at the end of its source `EOS` answers 1 and raises nothing. -/
theorem readerEos_raisesOnly (hgate : .illegalState ∈ es) (hio : .ioError ∈ es) (s : State) :
    (readerEos o s).RaisesOnly es := by
  refine .bind (gate_raisesOnly hgate _ s) fun _ t => ?_
  split
  · refine .bind (srcRead_raisesOnly _ t) fun a u => ?_
    cases a with
    | byte b => exact .done _ _
    | eof => exact .done _ _
    | ioError => exact .raised hio u
  · exact .done _ _

theorem readerClose_raisesOnly (hgate : .illegalState ∈ es) (s : State) : (readerClose o s).RaisesOnly es :=
  .bind (gate_raisesOnly hgate _ s) fun _ _ => .done _ _

/-! ### The writers -/

theorem emit_raisesOnly (h : transferErrors ⊆ es) (s : State) : (emit o s).RaisesOnly es :=
  .bind (snkWrite_raisesOnly h _ _ s) fun _ _ => .done _ _

theorem placeBit_raisesOnly (h : transferErrors ⊆ es) (v : Bool) (s : State) : (placeBit o v s).RaisesOnly es := by
  unfold placeBit
  dsimp only
  split
  · exact emit_raisesOnly o h _
  · exact .done _ _

/-- At `cur` = 8 the emission that is retried raises what an emission raises (entry 5). -/
theorem writeBit_raisesOnly (h : transferErrors ⊆ es) (v : Bool) (s : State) : (writeBit o v s).RaisesOnly es := by
  unfold writeBit
  split
  · exact .bind (emit_raisesOnly o h s) fun _ t => placeBit_raisesOnly o h v t
  · exact placeBit_raisesOnly o h v s

theorem writeField_raisesOnly (h : transferErrors ⊆ es) (field : Word64) (n : Nat) (s : State) :
    (writeField o field n s).RaisesOnly es := by
  induction n generalizing s with
  | zero => exact .done () s
  | succ n ih => exact .bind (writeBit_raisesOnly o h _ s) fun _ t => ih t

theorem writeRepeat_raisesOnly (h : transferErrors ⊆ es) (v : Bool) (n : Nat) (s : State) :
    (writeRepeat o v n s).RaisesOnly es := by
  induction n generalizing s with
  | zero => exact .done () s
  | succ n ih => exact .bind (writeBit_raisesOnly o h v s) fun _ t => ih t

theorem release_raisesOnly (h : transferErrors ⊆ es) (s : State) : (release o s).RaisesOnly es := by
  refine .bind ?_ fun _ _ => .done _ _
  unfold flushBits
  split
  · exact .done () s
  · exact emit_raisesOnly o h s

theorem writerBit_raisesOnly (h : transferErrors ⊆ es) (hgate : .illegalState ∈ es) (s : State) :
    (writerBit o s).RaisesOnly es :=
  .bind (gate_raisesOnly hgate _ s) fun _ t => .bind (writeBit_raisesOnly o h _ t) fun _ _ => .done _ _

/-- The shape of `BITS32`, `BITS64` and `REP`: a count, then that many bits. -/
theorem writerCounted_raisesOnly (hgate : .illegalState ∈ es) (hcount : .invalidArgument ∈ es) {limit : Nat}
    {w : Nat → State → Run Unit} (hw : ∀ n t, (w n t).RaisesOnly es) (s : State) :
    ((gate (s.writer o) s).bind fun _ s1 => (countOperand limit s1).bind fun n s2 =>
      (w n s2).bind fun _ s3 => .done (none : Option Word64) s3).RaisesOnly es :=
  .bind (gate_raisesOnly hgate _ s) fun _ t => .bind (countOperand_raisesOnly hcount limit t) fun n u =>
    .bind (hw n u) fun _ _ => .done _ _

theorem writerGetpos_raisesOnly (hgate : .illegalState ∈ es) (hseek : .notSupported ∈ es) (s : State) :
    (writerGetpos o s).RaisesOnly es :=
  .bind (gate_raisesOnly hgate _ s) fun _ t => .bind (getPos_raisesOnly hseek _ t) fun _ _ => .done _ _

theorem writerLen_raisesOnly (hgate : .illegalState ∈ es) (hseek : .notSupported ∈ es) (s : State) :
    (writerLen o s).RaisesOnly es :=
  .bind (gate_raisesOnly hgate _ s) fun _ t => .bind (getLen_raisesOnly hseek _ t) fun _ _ => .done _ _

theorem writerFlush_raisesOnly (h : transferErrors ⊆ es) (hgate : .illegalState ∈ es) (s : State) :
    (writerFlush o s).RaisesOnly es :=
  .bind (gate_raisesOnly hgate _ s) fun _ t => .bind (release_raisesOnly o h t) fun _ _ => .done _ _

theorem writerClose_raisesOnly (h : transferErrors ⊆ es) (hgate : .illegalState ∈ es) (s : State) :
    (writerClose o s).RaisesOnly es :=
  .bind (gate_raisesOnly hgate _ s) fun _ t => .bind (release_raisesOnly o h t) fun _ _ => .done _ _

/-! ### The varint and endian units -/

theorem writeBytes_raisesOnly (h : transferErrors ⊆ es) (p : Port) (bs : List Byte) (s : State) :
    (writeBytes p bs s).RaisesOnly es := by
  induction bs generalizing s with
  | nil => exact .done () s
  | cons b bs ih => exact .bind (snkWrite_raisesOnly h p b s) fun _ t => ih t

theorem decodeLoop_raisesOnly (h : transferErrors ⊆ es) (hover : .overflowError ∈ es) (fuel k : Nat) (acc : Word64)
    (s : State) : (decodeLoop fuel k acc s).RaisesOnly es := by
  induction fuel generalizing k acc s with
  | zero => exact .raised hover s
  | succ fuel ih =>
    refine .bind (srcRead_raisesOnly .p1 s) fun a t => ?_
    cases a with
    | byte b =>
      dsimp only
      split
      · exact ih (k + 1) _ t
      · exact .done _ t
    | eof => exact .raised (h (by decide)) t
    | ioError => exact .raised (h (by decide)) t

theorem fromBuffer_raisesOnly (h : .outOfRange ∈ es) (m : Nat) (s : State) : (fromBuffer m s).RaisesOnly es := by
  unfold fromBuffer
  split
  · exact .raised h s
  · split
    · exact fun _ _ hr => nomatch hr
    · exact .done _ s

end Operations

/-! ### The rows of R263 -/

/-- R263: the pseudocode of a command raises what its row of the table marks. -/
theorem commandRun_raisesOnly (i : Instr) (s : State) : (commandRun i s).RaisesOnly (mayRaise i) := by
  cases i with
  | venc => exact .bind (writeBytes_raisesOnly (by decide) _ _ s) fun _ _ => .done _ _
  | vdec => exact .bind (decodeLoop_raisesOnly (by decide) (by decide) _ 0 0 s) fun _ _ => .done _ _
  | vencb | vcnt | rmOpen | rlOpen | wmOpen | wlOpen => exact .done _ _
  | swap16 | swap32 | swap64 | tobe16 | tobe32 | tobe64 => exact .done _ _
  | rmBit | rlBit => exact readerBit_raisesOnly _ (by decide) (by decide) s
  | rmBits32 | rlBits32 | rmBits64 | rlBits64 =>
    exact readerBits_raisesOnly _ (by decide) (by decide) (by decide) _ s
  | rmGetpos | rlGetpos => exact readerGetpos_raisesOnly _ (by decide) (by decide) s
  | rmSetpos | rlSetpos => exact readerSetpos_raisesOnly _ (by decide) (by decide) (by decide) s
  | rmLen | rlLen => exact readerLen_raisesOnly _ (by decide) (by decide) s
  | rmEos | rlEos => exact readerEos_raisesOnly _ (by decide) (by decide) s
  | rmClose | rlClose => exact readerClose_raisesOnly _ (by decide) s
  | wmBit | wlBit => exact writerBit_raisesOnly _ (by decide) (by decide) s
  | wmBits32 | wlBits32 =>
    exact writerCounted_raisesOnly _ (by decide) (by decide)
      (fun n t => writeField_raisesOnly _ (by decide) (zext64 (arg0Low32 t)) n t) s
  | wmBits64 | wlBits64 =>
    exact writerCounted_raisesOnly _ (by decide) (by decide)
      (fun n t => writeField_raisesOnly _ (by decide) t.arg0 n t) s
  | wmRep | wlRep =>
    exact writerCounted_raisesOnly _ (by decide) (by decide)
      (fun n t => writeRepeat_raisesOnly _ (by decide) (arg0Bit t) n t) s
  | wmGetpos | wlGetpos => exact writerGetpos_raisesOnly _ (by decide) (by decide) s
  | wmLen | wlLen => exact writerLen_raisesOnly _ (by decide) (by decide) s
  | wmFlush | wlFlush => exact writerFlush_raisesOnly _ (by decide) (by decide) s
  | wmClose | wlClose => exact writerClose_raisesOnly _ (by decide) (by decide) s
  | frombe16 | frombe32 | frombe64 => exact fromBuffer_raisesOnly (by decide) _ s

/-- R250, R263: a completed command ends with success or with an error of its row. -/
theorem exec_status_of_next {i : Instr} {s t : State} (h : exec i s = .next t) :
    t.status = 0 ∨ ∃ e ∈ mayRaise i, t.status = errorCode e := by
  obtain ⟨v, u, -, -, rfl⟩ | ⟨e, u, hr, -, rfl⟩ := exec_next_cases h
  · exact .inl (succeed_status v u)
  · exact .inr ⟨e, commandRun_raisesOnly i s e u hr, raiseError_status e u⟩

/-! ### The columns of R263 -/

/-- A state in which every unit is open on the device `d`, a transaction away from its next bit: the readers hold no
byte, the writers miss one bit of theirs. `ARG0` is a target inside a byte, so that `SETPOS` reads, and `ARG1` is `n`. -/
def openOn (d : Device) (n : Word32) : State :=
  { State.reset with
    arg0 := 1
    arg1 := n
    rm := openedReader
    wm := { openedWriter with cur := 7 }
    rl := openedReader
    wl := { openedWriter with cur := 7 }
    ports := { p0 := d, p1 := d, p2 := d, p3 := d, p4 := d, p5 := d } }

/-- For each kind of error a state in which every command marked with it raises it: the units are open on a device at its
end without a place left, on a closed one, on one that cannot seek, on ten bytes that each ask for another, or given a
negative count; or they are released and `BLEN` is 0, as after reset. -/
def raisingState : ErrorKind → State
  | .endOfStream => openOn (.memStream { data := [], pos := 0, seekable := true, cap := some 0, closed := false }) 1
  | .overflowError => openOn (streamOf (List.replicate 10 0x80) true) 1
  | .invalidArgument => openOn emptyStream (-1)
  | .ioError => openOn emptyStream.close 1
  | .notSupported => openOn (streamOf [] false) 1
  | .illegalState | .outOfRange | .illegalCommand => State.reset

/-- The command completes in the state with the code of the error. -/
def Raises (i : Instr) (e : ErrorKind) (s : State) : Prop := ∃ t, exec i s = .next t ∧ t.status = errorCode e

section Columns

variable {i : Instr}

theorem raises_endOfStream (h : .endOfStream ∈ mayRaise i) : Raises i .endOfStream (raisingState .endOfStream) := by
  cases i with
  | venc | vdec => exact ⟨_, rfl, rfl⟩
  | rmBit | rlBit | rmBits32 | rlBits32 | rmBits64 | rlBits64 | rmSetpos | rlSetpos => exact ⟨_, rfl, rfl⟩
  | wmBit | wlBit | wmBits32 | wlBits32 | wmBits64 | wlBits64 | wmRep | wlRep => exact ⟨_, rfl, rfl⟩
  | wmFlush | wlFlush | wmClose | wlClose => exact ⟨_, rfl, rfl⟩
  | _ => exact absurd h (by decide)

theorem raises_ioError (h : .ioError ∈ mayRaise i) : Raises i .ioError (raisingState .ioError) := by
  cases i with
  | venc | vdec => exact ⟨_, rfl, rfl⟩
  | rmBit | rlBit | rmBits32 | rlBits32 | rmBits64 | rlBits64 | rmSetpos | rlSetpos | rmEos | rlEos =>
    exact ⟨_, rfl, rfl⟩
  | wmBit | wlBit | wmBits32 | wlBits32 | wmBits64 | wlBits64 | wmRep | wlRep => exact ⟨_, rfl, rfl⟩
  | wmFlush | wlFlush | wmClose | wlClose => exact ⟨_, rfl, rfl⟩
  | _ => exact absurd h (by decide)

theorem raises_overflowError (h : .overflowError ∈ mayRaise i) :
    Raises i .overflowError (raisingState .overflowError) := by
  cases i with
  | vdec => exact ⟨_, rfl, rfl⟩
  | _ => exact absurd h (by decide)

theorem raises_invalidArgument (h : .invalidArgument ∈ mayRaise i) :
    Raises i .invalidArgument (raisingState .invalidArgument) := by
  cases i with
  | rmBits32 | rlBits32 | rmBits64 | rlBits64 => exact ⟨_, rfl, rfl⟩
  | wmBits32 | wlBits32 | wmBits64 | wlBits64 | wmRep | wlRep => exact ⟨_, rfl, rfl⟩
  | _ => exact absurd h (by decide)

theorem raises_notSupported (h : .notSupported ∈ mayRaise i) : Raises i .notSupported (raisingState .notSupported) := by
  cases i with
  | rmGetpos | rlGetpos | rmSetpos | rlSetpos | rmLen | rlLen => exact ⟨_, rfl, rfl⟩
  | wmGetpos | wlGetpos | wmLen | wlLen => exact ⟨_, rfl, rfl⟩
  | _ => exact absurd h (by decide)

theorem raises_outOfRange (h : .outOfRange ∈ mayRaise i) : Raises i .outOfRange (raisingState .outOfRange) := by
  cases i with
  | frombe16 | frombe32 | frombe64 => exact ⟨_, rfl, rfl⟩
  | _ => exact absurd h (by decide)

/-- R255, R263: the column of `IllegalState` is the commands of the readers and writers but their `OPEN`. -/
theorem gated_of_illegalState_mem (h : .illegalState ∈ mayRaise i) :
    ∃ o, (i.unit = readerUnit o ∧ i ≠ rdOpen o) ∨ (i.unit = writerUnit o ∧ i ≠ wrOpen o) := by
  cases i with
  | rmBit | rmBits32 | rmBits64 | rmGetpos | rmSetpos | rmLen | rmEos | rmClose =>
    exact ⟨.msb, .inl ⟨rfl, by decide⟩⟩
  | rlBit | rlBits32 | rlBits64 | rlGetpos | rlSetpos | rlLen | rlEos | rlClose =>
    exact ⟨.lsb, .inl ⟨rfl, by decide⟩⟩
  | wmBit | wmBits32 | wmBits64 | wmRep | wmGetpos | wmLen | wmFlush | wmClose =>
    exact ⟨.msb, .inr ⟨rfl, by decide⟩⟩
  | wlBit | wlBits32 | wlBits64 | wlRep | wlGetpos | wlLen | wlFlush | wlClose =>
    exact ⟨.lsb, .inr ⟨rfl, by decide⟩⟩
  | _ => exact absurd h (by decide)

theorem raises_illegalState (h : .illegalState ∈ mayRaise i) : Raises i .illegalState (raisingState .illegalState) := by
  obtain ⟨o, hi⟩ := gated_of_illegalState_mem h
  obtain ⟨hreader, hwriter⟩ := releasedUnitsRaiseIllegalState i State.reset o
  obtain ⟨hu, hopen⟩ | ⟨hu, hopen⟩ := hi
  · exact ⟨_, hreader hu hopen (by cases o <;> rfl), raiseError_status ..⟩
  · exact ⟨_, hwriter hu hopen (by cases o <;> rfl), raiseError_status ..⟩

/-- R260: no command raises `IllegalCommand`; the bytes that are none do. -/
theorem illegalCommand_not_mem_mayRaise (i : Instr) : .illegalCommand ∉ mayRaise i := by
  cases i <;> decide

/-- R263: no mark of the table is idle. -/
theorem raises_raisingState {e : ErrorKind} (h : e ∈ mayRaise i) : Raises i e (raisingState e) := by
  cases e with
  | endOfStream => exact raises_endOfStream h
  | overflowError => exact raises_overflowError h
  | invalidArgument => exact raises_invalidArgument h
  | illegalState => exact raises_illegalState h
  | outOfRange => exact raises_outOfRange h
  | ioError => exact raises_ioError h
  | illegalCommand => exact absurd h (illegalCommand_not_mem_mayRaise i)
  | notSupported => exact raises_notSupported h

end Columns

/-! ### Bytes that are no command -/

/-- R98: a byte that no command has is illegal. -/
theorem decode_illegal_of_forall_ne {c : Byte} (h : ∀ i, decode c ≠ .ok i) :
    decode c = .error (.illegalCommand c) := by
  rw [decode_eq_illegal_iff, Option.eq_none_iff_forall_ne_some]
  exact fun i hi => h i (decode_eq_ok_iff.mpr hi)

/-- Settles O19: the first clause by the rows of the table, the second by its columns, the third by the blank cells of
R92. -/
theorem commandsRaiseListedErrors : Obligations.CommandsRaiseListedErrors :=
  ⟨fun _ _ _ => exec_status_of_next, fun _ e h => ⟨raisingState e, raises_raisingState h⟩,
    fun _ s h => issue_of_illegal (decode_illegal_of_forall_ne h) s⟩

end Sys2Proof.Machine

/-! # Counting port transactions (spec/70_reset_and_hazards.md R297)

A free device has a list of coming answers, and each transaction takes one off it. Between two states the device on a
port made `k` transactions if it has `k` answers fewer left: counts of one operation after another add up. One lemma for
each port primitive and each loop of the units counts what it does when it succeeds, and the commands are read off. -/

namespace Sys2Proof.Machine

/-! ### Transactions between two states -/

/-- Between `s` and `t` the device on port `p`, if it is a free one, gave `k` answers (entry 7). -/
def Transacted (p : Port) (k : Nat) (s t : State) : Prop :=
  ∀ d, s.port p = .oracle d → ∃ e, t.port p = .oracle e ∧ d.left = e.left + k

section Rules

variable {p : Port} {k l : Nat} {s t u : State}

theorem Transacted.left_eq {d e : OracleDevice} (h : Transacted p k s t) (hs : s.port p = .oracle d)
    (ht : t.port p = .oracle e) : d.left = e.left + k := by
  obtain ⟨e', he', hleft⟩ := h d hs
  cases ht.symm.trans he'
  exact hleft

theorem Transacted.of_port_eq (h : t.port p = s.port p) : Transacted p 0 s t :=
  fun d hs => ⟨d, h.trans hs, rfl⟩

theorem Transacted.trans (h : Transacted p k s t) (h' : Transacted p l t u) : Transacted p (k + l) s u := by
  intro d hs
  obtain ⟨e, he, hk⟩ := h d hs
  obtain ⟨f, hf, hl⟩ := h' e he
  exact ⟨f, hf, by omega⟩

/-- What follows without touching the port adds nothing. -/
theorem Transacted.then_port_eq (h : Transacted p k s t) (hu : u.port p = t.port p) : Transacted p k s u :=
  h.trans (.of_port_eq hu)

/-- A primitive that takes one answer off a free device's list and leaves `x` on the port. -/
theorem Transacted.one {x : Device} (h : ∀ d, s.port p = .oracle d → ∃ e, x = .oracle e ∧ d.left = e.left + 1) :
    Transacted p 1 s (s.setPort p x) := fun d hs => by
  rw [port_setPort_same]
  exact h d hs

end Rules

/-! ### The port primitives (R53, R54) -/

theorem oracle_srcRead_left {d : OracleDevice} {a : SrcAnswer} {x : Device}
    (h : (Device.oracle d).srcRead = some (a, x)) : ∃ e, x = .oracle e ∧ d.left = e.left + 1 := by
  obtain ⟨_ | ⟨⟨_ | _ | _, w, l⟩, ds⟩, pos, hd, sk, cl⟩ := d <;> cases h <;> exact ⟨_, rfl, rfl⟩

theorem oracle_snkWrite_left {d : OracleDevice} {b : Byte} {a : SnkAnswer} {x : Device}
    (h : (Device.oracle d).snkWrite b = some (a, x)) : ∃ e, x = .oracle e ∧ d.left = e.left + 1 := by
  obtain ⟨_ | ⟨⟨r, _ | _ | _, l⟩, ds⟩, pos, hd, sk, cl⟩ := d <;> cases h <;> exact ⟨_, rfl, rfl⟩

section Primitives

variable {p : Port} {s t : State}

theorem transacted_setPort_of_srcRead {a : SrcAnswer} {x : Device} (h : (s.port p).srcRead = some (a, x)) :
    Transacted p 1 s (s.setPort p x) := .one fun _ hs => oracle_srcRead_left (hs ▸ h)

theorem srcRead_transacted {a : SrcAnswer} (h : srcRead p s = .done a t) : Transacted p 1 s t := by
  obtain ⟨x, hx, rfl⟩ := srcRead_eq_done.mp h
  exact transacted_setPort_of_srcRead hx

theorem snkWrite_transacted {b : Byte} {a : Unit} (h : snkWrite p b s = .done a t) : Transacted p 1 s t := by
  obtain ⟨x, hx, rfl⟩ := snkWrite_eq_done.mp h
  exact .one fun _ hs => oracle_snkWrite_left (hs ▸ hx)

end Primitives

/-! ### The varint loops (R124, R127) -/

/-- R124: one write for each byte. -/
theorem writeBytes_transacted {p : Port} {bs : List Byte} {s t : State} {a : Unit}
    (h : writeBytes p bs s = .done a t) : Transacted p bs.length s t := by
  induction bs generalizing s with
  | nil =>
    cases h
    exact .of_port_eq rfl
  | cons b bs ih =>
    obtain ⟨_, u, hwrite, hrest⟩ := Run.bind_eq_done.mp ((writeBytes_cons p b bs s).symm.trans h)
    rw [List.length_cons, Nat.add_comm]
    exact (snkWrite_transacted hwrite).trans (ih hrest)

/-- R127: a value takes at least one pull and at most the pulls left. -/
theorem decodeLoop_transacted {fuel k : Nat} {acc v : Word64} {s t : State} (h : decodeLoop fuel k acc s = .done v t) :
    ∃ m, 1 ≤ m ∧ m ≤ fuel ∧ Transacted .p1 m s t := by
  induction fuel generalizing k acc s with
  | zero => cases h
  | succ fuel ih =>
    rw [decodeLoop] at h
    obtain ⟨ans, u, hread, hans⟩ := Run.bind_eq_done.mp h
    have hpull := srcRead_transacted hread
    cases ans with
    | byte b =>
      dsimp only at hans
      split at hans
      case isTrue =>
        obtain ⟨m, -, hle, hm⟩ := ih hans
        exact ⟨1 + m, by omega, by omega, hpull.trans hm⟩
      case isFalse =>
        cases hans
        exact ⟨1, le_rfl, by omega, hpull⟩
    | eof => cases hans
    | ioError => cases hans

/-! ### The bits of a reader (R141, R145) -/

theorem pullsNeeded_one (c : Cursor) : pullsNeeded c 1 = if c.val = 8 then 1 else 0 := by
  have hc := c.isLt
  unfold pullsNeeded
  split <;> omega

section Reader

variable {o : BitOrder} {w n : Nat} {r r' : BitVec w} {s t : State}

/-- R297: the reads that `n` bits take: none inside a byte, one at each boundary. -/
theorem readBits_transacted (h : readBits o n r s = .done r' t) :
    Transacted (readPort o) (pullsNeeded (s.reader o).cur n) s t := by
  induction n generalizing r s with
  | zero =>
    cases h
    rw [pullsNeeded_zero]
    exact .of_port_eq rfl
  | succ n ih =>
    rw [readBits_succ] at h
    obtain ⟨b, u, hbit, hrest⟩ := Run.bind_eq_done.mp h
    have hloop := ih hrest
    obtain ⟨hcur, -, rfl⟩ | ⟨hcur, c, x, hx, -, rfl⟩ := readBit_done_cases hbit
    · rw [reader_setReader_same] at hloop
      rw [pullsNeeded_inside hcur, ← Nat.zero_add (pullsNeeded _ n)]
      exact (Transacted.of_port_eq (port_setReader ..)).trans hloop
    · rw [reader_setReader_same] at hloop
      rw [hcur, pullsNeeded_boundary, Nat.add_comm]
      exact ((transacted_setPort_of_srcRead hx).then_port_eq (port_setReader ..)).trans hloop

/-- A bit is a field of one bit. -/
theorem readBit_transacted {b : Bool} (h : readBit o s = .done b t) :
    Transacted (readPort o) (if (s.reader o).cur.val = 8 then 1 else 0) s t := by
  rw [← pullsNeeded_one]
  refine readBits_transacted (r := 0#1) (r' := shiftInBit 0#1 b) ?_
  rw [readBits_succ, h, Run.bind_done, readBits_zero]

end Reader

/-! ### The bits of a writer (R181, R185, R187) -/

section Writer

variable {o : BitOrder} {s t : State} {a : Unit}

theorem emit_transacted (h : emit o s = .done a t) :
    Transacted (writePort o) 1 s t ∧ (t.writer o).cur = 0 := by
  obtain ⟨_, u, hwrite, ht⟩ := Run.bind_eq_done.mp h
  cases ht
  exact ⟨(snkWrite_transacted hwrite).then_port_eq (port_setWriter ..),
    congrArg BitUnit.cur (writer_setWriter_same ..)⟩

/-- R181: the eighth bit of a byte makes the one transaction. -/
theorem writeBit_transacted {v : Bool} (hcur : (s.writer o).cur.val < 8) (h : writeBit o v s = .done a t) :
    Transacted (writePort o) (((s.writer o).cur.val + 1) / 8) s t ∧
      (t.writer o).cur.val = ((s.writer o).cur.val + 1) % 8 := by
  by_cases hroom : (s.writer o).cur.val + 1 < 8
  · have hne : (s.writer o).cur ≠ 8 := Fin.ne_of_val_ne (Nat.ne_of_lt hcur)
    rw [writeBit_of_room hroom] at h
    cases h
    rw [Nat.div_eq_of_lt hroom, Nat.mod_eq_of_lt hroom, writer_setWriter_same]
    exact ⟨.of_port_eq (port_setWriter ..), Cursor.val_add_one hne⟩
  · have hseven : (s.writer o).cur.val = 7 := by omega
    rw [writeBit_eq_emit hseven] at h
    obtain ⟨hemit, hzero⟩ := emit_transacted h
    rw [hseven, hzero]
    exact ⟨(Transacted.of_port_eq (port_setWriter ..)).trans hemit, rfl⟩

/-- R297: one transaction for each whole byte that the bits make with the pending ones. -/
theorem writeBits_transacted {bits : List Bool} (hcur : (s.writer o).cur.val < 8)
    (h : writeBits o bits s = .done a t) :
    Transacted (writePort o) (((s.writer o).cur.val + bits.length) / 8) s t := by
  induction bits generalizing s with
  | nil =>
    cases h
    rw [List.length_nil, Nat.add_zero, Nat.div_eq_of_lt hcur]
    exact .of_port_eq rfl
  | cons b bits ih =>
    obtain ⟨_, u, hbit, hrest⟩ := Run.bind_eq_done.mp h
    obtain ⟨hfirst, hu⟩ := writeBit_transacted hcur hbit
    have hloop := ih (by omega) hrest
    have hsum : ((s.writer o).cur.val + (b :: bits).length) / 8 =
        ((s.writer o).cur.val + 1) / 8 + ((u.writer o).cur.val + bits.length) / 8 := by
      rw [hu, List.length_cons]
      omega
    rw [hsum]
    exact hfirst.trans hloop

theorem length_fieldBits (v : Word64) (n : Nat) : (fieldBits v n).length = n := by
  rw [fieldBits_eq_reverse, List.length_reverse, List.length_map, List.length_range]

/-- R94, R185, R187: a counted command that ended without an error wrote as many bits as its count says. -/
theorem writerCounted_transacted {limit n : Nat} {w : Nat → State → Run Unit} {bits : List Bool} {v : Option Word64}
    (hn : s.arg1.toInt = n) (hcur : (s.writer o).cur.val < 8) (hw : w n s = writeBits o bits s)
    (hlength : bits.length = n)
    (h : ((gate (s.writer o) s).bind fun _ s1 => (countOperand limit s1).bind fun n s2 =>
      (w n s2).bind fun _ s3 => .done (none : Option Word64) s3) = .done v t) :
    Transacted (writePort o) (((s.writer o).cur.val + n) / 8) s t := by
  obtain ⟨-, hcounted⟩ := gate_bind_eq_done.mp h
  obtain ⟨m, u, hcount, hrun⟩ := Run.bind_eq_done.mp hcounted
  obtain ⟨hm, -, rfl⟩ := countOperand_eq_done.mp hcount
  obtain rfl : n = m := Int.ofNat.inj (hn.symm.trans hm)
  obtain ⟨_, u, hbits, hend⟩ := Run.bind_eq_done.mp hrun
  cases hend
  rw [hw] at hbits
  exact hlength ▸ writeBits_transacted hcur hbits

end Writer

/-! ### The commands (R297) -/

section Commands

variable {o : BitOrder} {s t : State}

/-- R103: the end of a command makes no transaction. -/
theorem exec_transacted {i : Instr} {p : Port} {k : Nat} (h : exec i s = .next t) (ht : t.status = 0)
    (hrun : ∀ v u, commandRun i s = .done v u → Transacted p k s u) : Transacted p k s t := by
  obtain ⟨v, u, hdone, rfl⟩ := commandRun_done_of_success h ht
  exact (hrun v u hdone).then_port_eq (port_succeed ..)

theorem exec_venc_transacted (h : exec .venc s = .next t) (ht : t.status = 0) :
    Transacted .p0 (varintLen s.arg0) s t :=
  exec_transacted h ht fun v u hrun => by
    obtain ⟨_, w, hwrite, hend⟩ := Run.bind_eq_done.mp ((commandRun_venc s).symm.trans hrun)
    cases hend
    exact writeBytes_transacted hwrite

theorem exec_vdec_transacted (h : exec .vdec s = .next t) (ht : t.status = 0) :
    ∃ m, 1 ≤ m ∧ m ≤ 10 ∧ Transacted .p1 m s t := by
  obtain ⟨v, u, hrun, rfl⟩ := commandRun_done_of_success h ht
  obtain ⟨_, w, hloop, hend⟩ := Run.bind_eq_done.mp hrun
  cases hend
  obtain ⟨m, hpos, hle, hm⟩ := decodeLoop_transacted hloop
  exact ⟨m, hpos, hle, hm.then_port_eq (port_succeed ..)⟩

theorem exec_rdBit_transacted (h : exec (rdBit o) s = .next t) (ht : t.status = 0) :
    Transacted (readPort o) (if (s.reader o).cur.val = 8 then 1 else 0) s t := by
  obtain ⟨b, u, hbit, rfl⟩ := readBit_of_rdBit_success h ht
  exact (readBit_transacted hbit).then_port_eq (port_succeed ..)

theorem readerBits_transacted {w n : Nat} {v : Option Word64} (hn : s.arg1.toInt = n)
    (h : readerBits o w s = .done v t) : Transacted (readPort o) (pullsNeeded (s.reader o).cur n) s t := by
  obtain ⟨m, r, hm, hbits⟩ := readBits_of_readerBits_eq_done h
  obtain rfl : n = m := Int.ofNat.inj (hn.symm.trans hm)
  exact readBits_transacted hbits

theorem exec_rdBits_transacted {n : Nat} (hn : s.arg1.toInt = n)
    (h : exec (rdBits32 o) s = .next t ∨ exec (rdBits64 o) s = .next t) (ht : t.status = 0) :
    Transacted (readPort o) (pullsNeeded (s.reader o).cur n) s t := by
  obtain h | h := h
  · exact exec_transacted h ht fun v u hrun =>
      readerBits_transacted hn ((congrFun (commandRun_rdBits32 o) s).symm.trans hrun)
  · exact exec_transacted h ht fun v u hrun =>
      readerBits_transacted hn ((congrFun (commandRun_rdBits64 o) s).symm.trans hrun)

/-- R185 to R187: each of the three commands writes a list of as many bits as its count says. -/
theorem exec_wrBits_transacted {n : Nat} (hn : s.arg1.toInt = n) (hcur : (s.writer o).cur.val < 8)
    (h : exec (wrBits32 o) s = .next t ∨ exec (wrBits64 o) s = .next t ∨ exec (wrRep o) s = .next t)
    (ht : t.status = 0) : Transacted (writePort o) (((s.writer o).cur.val + n) / 8) s t := by
  obtain h | h | h := h
  · exact exec_transacted h ht fun v u hrun =>
      writerCounted_transacted (w := fun n u => writeField o (zext64 (arg0Low32 u)) n u) hn hcur
        (congrFun (writeField_eq_writeBits o _ n) s) (length_fieldBits _ n)
        ((congrFun (commandRun_wrBits32 o) s).symm.trans hrun)
  · exact exec_transacted h ht fun v u hrun =>
      writerCounted_transacted (w := fun n u => writeField o u.arg0 n u) hn hcur
        (congrFun (writeField_eq_writeBits o _ n) s) (length_fieldBits _ n)
        ((congrFun (commandRun_wrBits64 o) s).symm.trans hrun)
  · exact exec_transacted h ht fun v u hrun =>
      writerCounted_transacted (w := fun n u => writeRepeat o (arg0Bit u) n u) hn hcur
        (congrFun (writeRepeat_eq_writeBits o _ n) s) List.length_replicate
        ((congrFun (commandRun_wrRep o) s).symm.trans hrun)

end Commands

/-- Settles O60, command by command, from the transactions its success made. -/
theorem transactionsCounted : Obligations.TransactionsCounted := by
  refine fun s t o n d e ht => ⟨fun h => (exec_venc_transacted h ht).left_eq, fun h hs he => ?vdec,
    fun h => (exec_rdBit_transacted h ht).left_eq, fun hn h => (exec_rdBits_transacted hn h ht).left_eq,
    fun hn hcur h => (exec_wrBits_transacted hn hcur h ht).left_eq⟩
  case vdec =>
    obtain ⟨m, hpos, hle, hm⟩ := exec_vdec_transacted h ht
    have hleft := hm.left_eq hs he
    omega

end Sys2Proof.Machine

/-! # A writer at cur 8 (spec/93_implementation_defined.md, item U6)

The byte a failed emission left is offered to the sink once more. A refusal changes only the device; an `Ok` leaves the
record empty, and the bit is written as into any empty writer. -/

namespace Sys2Proof.Machine

section Retry

variable {o : BitOrder} {s : State} {v : Bool}

theorem emptied_cur_ne_eight (u : BitUnit) : u.emptied.cur ≠ 8 := (by decide : (0 : Cursor) ≠ 8)

/-- R32, R181: one bit put into an empty record makes a byte of that bit with zeros after it. -/
theorem emptied_withBit_eq (o : BitOrder) (v : Bool) (u : BitUnit) :
    u.emptied.withBit o v = { u with buf := byteOfBits o [v], cur := 1 } := by
  have hpending : pendingBits o (u.emptied.withBit o v) = [v] :=
    (pendingBits_withBit o v (emptied_cur_ne_eight u)).trans
      (congrArg (· ++ [v]) (pendingBits_eq_map o u.emptied))
  have hrest : ∀ k, k < 8 → 1 ≤ k → streamBit o (putStreamBit o 0 0 v) k = false := fun k hk hle =>
    (streamBit_putStreamBit_other o 0 v (by decide) hk (by omega)).trans (streamBit_zero o k)
  rw [← hpending, byteOfBits_pendingBits hrest]
  rfl

/-- U6: a second refusal is the command's error, and the record keeps the byte. -/
theorem writeBit_retry_refused {a : SnkAnswer} {e : ErrorKind} {d : Device} (hcur : (s.writer o).cur = 8)
    (hd : (s.port (writePort o)).snkWrite (s.writer o).buf = some (a, d)) (he : a.error? = some e) :
    writeBit o v s = .raised e (s.setPort (writePort o) d) := by
  rw [writeBit_retry hcur, emit_error hd he, Run.bind_raised]

/-- U6: once the sink takes the byte, the bit is put into the empty record. It does not fill that record, so nothing
more is emitted. -/
theorem writeBit_retry_taken {d : Device} (hcur : (s.writer o).cur = 8)
    (hd : (s.port (writePort o)).snkWrite (s.writer o).buf = some (.ok, d)) :
    writeBit o v s =
      .done () ((s.setPort (writePort o) d).setWriter o ((s.writer o).emptied.withBit o v)) := by
  have hinside : (s.writer o).emptied.cur + 1 ≠ 8 := (by decide : (0 : Cursor) + 1 ≠ 8)
  rw [writeBit_retry hcur, emit_ok hd, Run.bind_done,
    placeBit_inside (by rw [writer_setWriter_same]; exact hinside), writer_setWriter_same, setWriter_setWriter]
  rfl

end Retry

/-- Settles O52, by the sink's answer to the byte offered again. -/
theorem writerRetriesTheUnsentByte : Obligations.WriterRetriesTheUnsentByte := by
  refine fun o s hatt hval => ?_
  have hcur : (s.writer o).cur = 8 := Fin.ext hval
  refine ⟨fun a e d hd he => ?refused, fun d hd => ?taken⟩
  case refused =>
    exact exec_of_commandRun_raised
      (by rw [commandRun_wrBit_open hatt, writeBit_retry_refused hcur hd he, Run.bind_raised])
  case taken =>
    exact exec_of_commandRun_done
      (by rw [commandRun_wrBit_open hatt, writeBit_retry_taken hcur hd, Run.bind_done, emptied_withBit_eq])

end Sys2Proof.Machine
